-- ==== Sys2Proof/Word.lean ====
section
/-! DEFINITION. The word the host and the block exchange (spec 00_scope.md R8, R12). -/

namespace Sys2Proof

/-- The host data path and every host register are 64 bits wide (R8). Bit `i` of a word has weight
`2 ^ i` (R12). -/
abbrev Word := BitVec 64

end Sys2Proof
end

