-- ==== Sys2Proof/Config.lean ====
section
/-! DEFINITION. What a build or an implementation of the block fixes, and the values the spec leaves
free (spec 00_scope.md R5, R9; 70_reset_and_hazards.md R235; 93_implementation_defined.md U1, U2, U5). -/

namespace Sys2Proof

/-- The permutation width B, an elaboration parameter (R5). These are its seven legal values and there
is no other: a block with an illegal B cannot be instantiated (R101, R215). -/
inductive Width
  | b25
  | b50
  | b100
  | b200
  | b400
  | b800
  | b1600
deriving DecidableEq, Repr

/-- `OUTLEN_BITS`, the width of OUTLEN.D and of REMAIN (R9, R30). -/
def Config.outlenBits : Nat := 32

/-- FREE VALUE (log 6). The value the n-th unspecified read returns: a read of LANE, DOUT, POS or CUR
while BUSY = 1 "returns an unspecified value. The model returns any 64-bit value" (R235). It has no
body, so nothing can be proved of it. -/
opaque Config.busyRead : Nat → Word

end Sys2Proof
end

