-- ==== Sys2Proof/Syntax.lean ====
section
/-! DEFINITION. The commands of the block, the names of its host registers, the host's transactions and
the assembler's lines, as syntax (spec 30_encoding.md R85, R88, R89; 20_memory.md R60, R61). -/

namespace Sys2Proof

/-- The nine commands, one constructor for each row of the opcode table (R85). `n` is a bit count and
`k` a lane index; `Instr.wellFormed` gives their ranges. -/
inductive Instr
  /-- NOP (R180). -/
  | nop
  /-- INIT (R155). -/
  | init
  /-- ABSORB n (R156). -/
  | absorb (n : Nat)
  /-- FINAL (R157). -/
  | final
  /-- SQUEEZE n (R158). -/
  | squeeze (n : Nat)
  /-- PERMUTE (R120). -/
  | permute
  /-- XORLANE k (R121). -/
  | xorlane (k : Nat)
  /-- LOADLANE k (R122). -/
  | loadlane (k : Nat)
  /-- CLEAR (R181). -/
  | clear
deriving DecidableEq, Repr

/-- The named locations of the register window (R61). -/
inductive Reg
  | param
  | cfg
  | outlen
  | din
  | cmd
  | status
  | pos
  | cur
  | dout
  | lane (k : Fin 25)
deriving DecidableEq, Repr

/-- One transaction at the block's boundary, or the platform's reset (R60, R70, R230; log 1).
Addresses are host addresses; the register window starts at WINDOW_BASE. -/
inductive HostEvent
  /-- `MemWrite(addr, size, value)`. -/
  | write (addr size : Nat) (value : Word)
  /-- `MemRead(addr, size)`. -/
  | read (addr size : Nat)
  /-- The host's POLL loop: read STATUS until BUSY = 0 (R71, R88). -/
  | poll
  /-- The reset input (R230). -/
  | reset
deriving DecidableEq, Repr

/-- An assembler line (R88) or pseudo-instruction (R89). -/
inductive AsmLine
  /-- A command line `OP`, which stands for `WR CMD, encoding(OP)`. -/
  | cmd (i : Instr)
  /-- `WR NAME, value`. -/
  | wr (r : Reg) (v : Word)
  /-- `RD NAME`. -/
  | rd (r : Reg)
  /-- `POLL`. -/
  | poll
  /-- `ABSORBB`. -/
  | absorbB
  /-- `ABSORBW`. -/
  | absorbW
  /-- `SQUEEZEB`. -/
  | squeezeB
  /-- `SQUEEZEW`. -/
  | squeezeW
  /-- `ABSORBV value, n`. -/
  | absorbV (v : Word) (n : Nat)
  /-- `XORLANEV k, value`. -/
  | xorlaneV (k : Nat) (v : Word)
  /-- `LOADLANEV k, value`. -/
  | loadlaneV (k : Nat) (v : Word)
  /-- `SETCFG mode, nr, rate, sfxlen, sfx`. -/
  | setcfg (mode nr rate sfxlen sfx : Nat)
deriving DecidableEq, Repr

end Sys2Proof
end

