-- ==== Sys2Proof/WellFormed.lean ====
section
/-! DEFINITION. Which syntax is a legal command or line (spec 30_encoding.md R80, R82, R83, R88). -/

namespace Sys2Proof

/-- A bit count an encoding can hold: 1..64 (R82). -/
def bitCountOk (n : Nat) : Bool := 1 ≤ n && n ≤ 64

/-- A lane index: 0..24 (R83, R86). -/
def laneIndexOk (k : Nat) : Bool := k < 25

/-- The operand ranges of R82 and R83. -/
def Instr.wellFormed : Instr → Bool
  | .nop => true
  | .init => true
  | .absorb n => bitCountOk n
  | .final => true
  | .squeeze n => bitCountOk n
  | .permute => true
  | .xorlane k => laneIndexOk k
  | .loadlane k => laneIndexOk k
  | .clear => true

/-- An assembler line whose operands fit their fields: the ranges of R88, and for SETCFG the widths of
CFG's fields (10_state.md R35). -/
def AsmLine.wellFormed : AsmLine → Bool
  | .cmd i => i.wellFormed
  | .wr _ _ => true
  | .rd _ => true
  | .poll => true
  | .absorbB => true
  | .absorbW => true
  | .squeezeB => true
  | .squeezeW => true
  | .absorbV _ n => bitCountOk n
  | .xorlaneV k _ => laneIndexOk k
  | .loadlaneV k _ => laneIndexOk k
  | .setcfg mode nr rate sfxlen sfx => mode < 8 && nr < 32 && rate < 2048 && sfxlen < 16 && sfx < 256

end Sys2Proof
end

