-- ==== Sys2Proof/Decode.lean ====
section
/-! DEFINITION. The command decoder, total on every 64-bit word, and the encoder beside it
(spec 30_encoding.md R80 to R87, R90). -/

namespace Sys2Proof

/-- Why a word is ILLEGAL: the five cases of R86. The block reports one code for all of them (R202). -/
inductive Illegal
  /-- One of bits 63:15 is 1. -/
  | reservedBits
  /-- OPC is 9..15. -/
  | opcode
  /-- NM1 ≠ 0 and OPC is not ABSORB or SQUEEZE. -/
  | unusedNm1
  /-- K ≠ 0 and OPC is not XORLANE or LOADLANE. -/
  | unusedK
  /-- XORLANE or LOADLANE with K ≥ 25. -/
  | laneIndex
deriving DecidableEq, Repr

/-- OPC, bits 3:0 (R80, R81). -/
def fieldOpc (v : Word) : BitVec 4 := v.extractLsb' 0 4

/-- NM1, bits 9:4 (R80, R82). -/
def fieldNm1 (v : Word) : BitVec 6 := v.extractLsb' 4 6

/-- K, bits 14:10 (R80, R83). -/
def fieldK (v : Word) : BitVec 5 := v.extractLsb' 10 5

/-- The reserved bits 63:15 (R80). -/
def fieldReserved (v : Word) : BitVec 49 := v.extractLsb' 15 49

/-- ABSORB and SQUEEZE use NM1 (R84). -/
def usesNm1 (opc : Nat) : Bool := opc == 2 || opc == 4

/-- XORLANE and LOADLANE use K (R84). -/
def usesK (opc : Nat) : Bool := opc == 6 || opc == 7

/-- The opcode map of R85, applied to a word whose fields have passed the checks of R90.
`n = NM1 + 1` (R82), `k = K` (R83). -/
def decodeOpcode (opc nm1 k : Nat) : Except Illegal Instr :=
  match opc with
  | 0 => .ok .nop
  | 1 => .ok .init
  | 2 => .ok (.absorb (nm1 + 1))
  | 3 => .ok .final
  | 4 => .ok (.squeeze (nm1 + 1))
  | 5 => .ok .permute
  | 6 => .ok (.xorlane k)
  | 7 => .ok (.loadlane k)
  | 8 => .ok .clear
  | _ => .error .opcode

/-- `decode(v)` of R90, in the order of its checks. -/
def decode (v : Word) : Except Illegal Instr :=
  let opc := (fieldOpc v).toNat
  let nm1 := (fieldNm1 v).toNat
  let k := (fieldK v).toNat
  if fieldReserved v ≠ 0 then .error .reservedBits
  else if opc ≥ 9 then .error .opcode
  else if nm1 ≠ 0 ∧ usesNm1 opc = false then .error .unusedNm1
  else if k ≠ 0 ∧ usesK opc = false then .error .unusedK
  else if usesK opc = true ∧ k ≥ 25 then .error .laneIndex
  else decodeOpcode opc nm1 k

/-- The OPC value of a command (R85). -/
def Instr.opcode : Instr → BitVec 4
  | .nop => 0x0
  | .init => 0x1
  | .absorb _ => 0x2
  | .final => 0x3
  | .squeeze _ => 0x4
  | .permute => 0x5
  | .xorlane _ => 0x6
  | .loadlane _ => 0x7
  | .clear => 0x8

/-- The encoding column of R85. -/
def encode : Instr → Word
  | .nop => 0x0
  | .init => 0x1
  | .absorb n => 0x2 ||| BitVec.ofNat 64 (n - 1) <<< 4
  | .final => 0x3
  | .squeeze n => 0x4 ||| BitVec.ofNat 64 (n - 1) <<< 4
  | .permute => 0x5
  | .xorlane k => 0x6 ||| BitVec.ofNat 64 k <<< 10
  | .loadlane k => 0x7 ||| BitVec.ofNat 64 k <<< 10
  | .clear => 0x8

/-- The word that `nbits` bits of value `w` stand for: every bit of the 64-bit command word above
`nbits` is 0. -/
def tableWord (nbits w : Nat) : Word := BitVec.ofNat 64 (w % 2 ^ nbits)

/-- The command the decoder reads from a word numbered as spec/opcode_table.json numbers it. -/
def decodeTableWord (nbits w : Nat) : Option Instr :=
  match decode (tableWord nbits w) with
  | .ok i => some i
  | .error _ => none

end Sys2Proof
end

