-- ==== Sys2Proof/Machine/Params.lean ====
section
/-! DEFINITION. The numbers a width B determines: B, W, L and NRMAX (spec 00_scope.md R5, R6). -/

namespace Sys2Proof

/-- W = B / 25, the lane width (R6). -/
def Width.laneBits : Width → Nat
  | .b25 => 1
  | .b50 => 2
  | .b100 => 4
  | .b200 => 8
  | .b400 => 16
  | .b800 => 32
  | .b1600 => 64

/-- L = log2 W (R6). -/
def Width.log : Width → Nat
  | .b25 => 0
  | .b50 => 1
  | .b100 => 2
  | .b200 => 3
  | .b400 => 4
  | .b800 => 5
  | .b1600 => 6

/-- B, the number of bits of the state array (R5). -/
def Width.bits (w : Width) : Nat := 25 * w.laneBits

/-- NRMAX = 12 + 2L, the full round count (R6). -/
def Width.nrmax (w : Width) : Nat := 12 + 2 * w.log

/-- The width whose B is `b`; none for a B outside the permitted set, which is refused at construction
(R101, R215). -/
def Width.ofBits? (b : Nat) : Option Width :=
  if b = 25 then some .b25
  else if b = 50 then some .b50
  else if b = 100 then some .b100
  else if b = 200 then some .b200
  else if b = 400 then some .b400
  else if b = 800 then some .b800
  else if b = 1600 then some .b1600
  else none

/-- CFG at reset: MODE 0, NR = NRMAX, every other field 0 (10_state.md R35, R230). -/
def Width.resetCfg (w : Width) : Word := BitVec.ofNat 64 w.nrmax <<< 4

end Sys2Proof
end

