-- ==== Sys2Proof/Machine/Keccak.lean ====
section
/-! DEFINITION. The permutation engine: KeccakP(B, nr) in the lane form of spec 40_keccak_p.md R114,
with the ρ offsets of R104 and the round constants of R108 and R109 computed by their own rules.
KeccakCube.lean writes the same function bit by bit, as R103 to R112 do. -/

namespace Sys2Proof.Machine

/-- The 5 lanes that share y (R17, R23). -/
structure Plane (W : Nat) where
  x0 : BitVec W
  x1 : BitVec W
  x2 : BitVec W
  x3 : BitVec W
  x4 : BitVec W
deriving DecidableEq, Repr

/-- The state as 25 lanes of W bits, by plane (R23). -/
structure Lanes (W : Nat) where
  y0 : Plane W
  y1 : Plane W
  y2 : Plane W
  y3 : Plane W
  y4 : Plane W
deriving DecidableEq, Repr

/-- The lane of a plane at x in 0..4. -/
def Plane.lane {W : Nat} (p : Plane W) : Nat → BitVec W
  | 0 => p.x0
  | 1 => p.x1
  | 2 => p.x2
  | 3 => p.x3
  | _ => p.x4

/-- The lane `a[x,y]`, x and y in 0..4 (R114). -/
def Lanes.lane {W : Nat} (a : Lanes W) (x : Nat) : Nat → BitVec W
  | 0 => a.y0.lane x
  | 1 => a.y1.lane x
  | 2 => a.y2.lane x
  | 3 => a.y3.lane x
  | _ => a.y4.lane x

/-- The plane whose lane at x is `f x`. -/
def Plane.build {W : Nat} (f : Nat → BitVec W) : Plane W := ⟨f 0, f 1, f 2, f 3, f 4⟩

/-- The lanes whose lane at (x,y) is `f x y`. -/
def Lanes.build {W : Nat} (f : Nat → Nat → BitVec W) : Lanes W :=
  ⟨.build fun x => f x 0, .build fun x => f x 1, .build fun x => f x 2, .build fun x => f x 3,
    .build fun x => f x 4⟩

/-- θ's column parities `C[x]` (R103, R114). -/
def thetaC {W : Nat} (a : Lanes W) : Plane W :=
  .build fun x => a.lane x 0 ^^^ a.lane x 1 ^^^ a.lane x 2 ^^^ a.lane x 3 ^^^ a.lane x 4

/-- θ's `D[x] = C[(x-1) mod 5] ⊕ ROTL(C[(x+1) mod 5], 1)` (R103, R114); `x - 1` is `x + 4` mod 5
(R13). -/
def thetaD {W : Nat} (parity : Plane W) : Plane W :=
  .build fun x => parity.lane ((x + 4) % 5) ^^^ (parity.lane ((x + 1) % 5)).rotateLeft 1

/-- θ (R103, R114). -/
def theta {W : Nat} (a : Lanes W) : Lanes W :=
  let effect := thetaD (thetaC a)
  .build fun x y => a.lane x y ^^^ effect.lane x

/-- The walk of R104 from step t at (x,y), for `n` more steps: each visited lane index 5y + x with its
triangular number (t+1)(t+2) div 2. -/
def rhoWalk : Nat → Nat → Nat → Nat → List (Nat × Nat)
  | 0, _, _, _ => []
  | n + 1, t, x, y =>
    (5 * y + x, (t + 1) * (t + 2) / 2) :: rhoWalk n (t + 1) y ((2 * x + 3 * y) % 5)

/-- The triangular number of lane k before it is reduced mod W; 0 for lane (0,0), which the walk does
not visit (R104). -/
def rhoTriangle (k : Nat) : Nat := ((rhoWalk 24 0 1 0).lookup k).getD 0

/-- `off[x,y]` (R104). -/
def rhoOffset (W x y : Nat) : Nat := rhoTriangle (5 * y + x) % W

/-- ρ (R105, R114). -/
def rho {W : Nat} (a : Lanes W) : Lanes W :=
  .build fun x y => (a.lane x y).rotateLeft (rhoOffset W x y)

/-- π (R106, R114). -/
def pi {W : Nat} (a : Lanes W) : Lanes W := .build fun x y => a.lane ((x + 3 * y) % 5) x

/-- χ (R107, R114). -/
def chi {W : Nat} (a : Lanes W) : Lanes W :=
  .build fun x y => a.lane x y ^^^ (~~~(a.lane ((x + 1) % 5) y) &&& a.lane ((x + 2) % 5) y)

/-- One LFSR iteration of R108: prepend a 0, XOR the bit pushed out (old bit 7) into bits 0, 4, 5
and 6, keep 8 bits. Bit j of the register is `R[j]`. -/
def lfsrStep (r : BitVec 8) : BitVec 8 := r <<< 1 ^^^ (if r.getLsbD 7 then 0x71#8 else 0#8)

/-- The register after `t` iterations from `10000000` (R11, R108). -/
def lfsr : Nat → BitVec 8
  | 0 => 1
  | t + 1 => lfsrStep (lfsr t)

/-- rc(t) (R108). -/
def rcBit (t : Nat) : Bool := if t % 255 = 0 then true else (lfsr (t % 255)).getLsbD 0

/-- RC[i], the round constant: bit 2^j − 1 is rc(j + 7i) for j in 0..L (R109). -/
def roundConstant (W L i : Nat) : BitVec W :=
  (List.range (L + 1)).foldl
    (fun v j => if rcBit (j + 7 * i) then v ||| BitVec.twoPow W (2 ^ j - 1) else v) 0

/-- ι: lane (0,0) is XORed with RC[i] (R110). -/
def iota {W : Nat} (rc : BitVec W) (a : Lanes W) : Lanes W :=
  { a with y0 := { a.y0 with x0 := a.y0.x0 ^^^ rc } }

/-- Rnd(A, i) = ι(χ(π(ρ(θ(A)))), i) (R111). -/
def rnd {W : Nat} (L i : Nat) (a : Lanes W) : Lanes W :=
  iota (roundConstant W L i) (chi (pi (rho (theta a))))

/-- `n` rounds from round index `i`, ascending (R112, R119). -/
def rounds {W : Nat} (L : Nat) : Nat → Nat → Lanes W → Lanes W
  | 0, _, a => a
  | n + 1, i, a => rounds L n (i + 1) (rnd L i a)

/-- lane(k) of the state array: bits W·k to W·k + W − 1 (10_state.md R23). -/
def stateLane (W : Nat) (S : BitVec 1600) (k : Nat) : BitVec W := S.extractLsb' (W * k) W

/-- A lane's bits at its place in the state array (10_state.md R23). -/
def placeLane {W : Nat} (v : BitVec W) (k : Nat) : BitVec 1600 := v.setWidth 1600 <<< (W * k)

/-- The state array as lanes (10_state.md R21, R23). -/
def toLanes (W : Nat) (S : BitVec 1600) : Lanes W := .build fun x y => stateLane W S (5 * y + x)

/-- The lanes as a state array, the inverse of `toLanes` (10_state.md R22). -/
def fromLanes {W : Nat} (a : Lanes W) : BitVec 1600 :=
  (List.range 25).foldl (fun S k => S ||| placeLane (a.lane (k % 5) (k / 5)) k) 0

/-- KeccakP(B, nr): the nr rounds with indices 12 + 2L − nr .. 12 + 2L − 1 (R100, R112). -/
def keccakP (w : Width) (nr : Nat) (S : BitVec 1600) : BitVec 1600 :=
  fromLanes (rounds w.log nr (w.nrmax - nr) (toLanes w.laneBits S))

end Sys2Proof.Machine
end

