-- ==== Sys2Proof/Machine/State.lean ====
section
/-! DEFINITION. The machine's state, its reset value, and the reasons a step can stop
(spec 10_state.md R20 to R50; 70_reset_and_hazards.md R230). -/

namespace Sys2Proof.Machine

/-- PHASE, the sponge controller's phase (R27). -/
inductive Phase
  /-- 0: no session; the engine can be used raw. -/
  | idle
  /-- 1: a session is absorbing message bits. -/
  | absorb
  /-- 2: padding is done; output is being read. -/
  | squeeze
  /-- 3: all d output bits have been read. -/
  | done
deriving DecidableEq, Repr

/-- The values STATUS.ERR takes (60_exceptions.md R201). Codes 7..15 are never produced. -/
inductive ErrCode
  /-- 0: no error since the last CLEAR or reset. -/
  | none
  /-- 1: the word is not a legal encoding. -/
  | illegal
  /-- 2: the command is not legal in the current PHASE. -/
  | phase
  /-- 3: the configuration the command reads is not legal. -/
  | config
  /-- 4: the output length d is 0. -/
  | outlen
  /-- 5: a SQUEEZE asks for more bits than remain. -/
  | overrun
  /-- 6: a CMD write arrived while BUSY = 1. -/
  | busy
deriving DecidableEq, Repr

/-- The operand registers as a command captures them at issue (R48, R234). -/
structure Operands where
  din : Word
  cfg : Word
  outlen : Word
deriving DecidableEq, Repr

/-- A command between issue and completion (R32, R48, R233). -/
structure InFlight where
  /-- The captured command word, decoded. -/
  instr : Instr
  /-- The captured DIN, CFG and OUTLEN. -/
  ops : Operands
  /-- How many later host accesses still find BUSY = 1 (log 2). -/
  left : Nat
deriving DecidableEq, Repr

/-- Everything the spec gives the block, the two constants of its build and platform, and the model's
own record of the host (log 1, 2, 3). BUSY, PARAM, CMD, STATUS, POS, CUR and LANE hold nothing of
their own: they are views of these fields (R32, R34, R38 to R41, R43). -/
structure State where
  /-- B, the build parameter (R5); no step changes it. -/
  width : Width
  /-- WINDOW_BASE, the platform's parameter (R60); no step changes it. -/
  windowBase : Nat
  /-- The state array `S_lin`; bit i is `S_lin[i]`, and bits at or above B are 0 (R20). -/
  S : BitVec 1600
  /-- PHASE (R27). -/
  phase : Phase
  /-- APOS, the absorb position (R28). -/
  apos : BitVec 11
  /-- SPOS, the squeeze position (R29). -/
  spos : BitVec 11
  /-- REMAIN, the output bits still to be read (R30). -/
  remain : BitVec 32
  /-- RACT, the session's rate (R31). -/
  ract : BitVec 11
  /-- NRACT, the session's round count (R31). -/
  nract : BitVec 5
  /-- SFXLENACT, the number of suffix bits (R31). -/
  sfxlenact : BitVec 4
  /-- SFXACT, the suffix; bit i is the i-th bit appended (R31). -/
  sfxact : BitVec 8
  /-- ERR, the code of the first rejected command (R33). -/
  err : ErrCode
  /-- ERROPC, the OPC field of that command word (R33). -/
  erropc : BitVec 4
  /-- CFG (R35). -/
  cfg : Word
  /-- OUTLEN (R36). -/
  outlen : Word
  /-- DIN (R37). -/
  din : Word
  /-- DOUT (R42). -/
  dout : Word
  /-- The command in flight; BUSY = 1 exactly when there is one (R32, R48). -/
  inflight : Option InFlight
  /-- The host's next transactions, in program order, and the platform's resets (R45, R70; log 1). -/
  queue : List HostEvent
  /-- LAT of the commands that will be accepted, in order; an exhausted list means LAT = 0
  (R10, R233; log 2). -/
  latency : List Nat
  /-- What the last host read returned (log 1). -/
  reply : Option Word
  /-- How many unspecified values have been handed out (R235; log 6). -/
  freeIx : Nat
deriving DecidableEq, Repr

/-- Why the machine stops with a fault. -/
inductive Fault
  /-- Raised by a host read or write whose address lies outside the register window: the window is the
  block's whole address space towards the host (R60), so no such location exists. Safe: the model
  stops where the block would not be addressed at all (log 8). -/
  | outsideWindow (addr : Nat)
deriving DecidableEq, Repr

/-- Why an instruction has no meaning. -/
inductive Refusal
  /-- Raised by an arm of `exec` whose instruction has no meaning yet; none is left. Safe. -/
  | notModelled (mnemonic : String)
deriving DecidableEq, Repr

/-- A block of width `w` whose window stands at `base`, right after reset: the table of R230. -/
def State.resetAt (w : Width) (base : Nat) : State where
  width := w
  windowBase := base
  S := 0
  phase := .idle
  apos := 0
  spos := 0
  remain := 0
  ract := 0
  nract := 0
  sfxlenact := 0
  sfxact := 0
  err := .none
  erropc := 0
  cfg := w.resetCfg
  outlen := 0
  din := 0
  dout := 0
  inflight := none
  queue := []
  latency := []
  reply := none
  freeIx := 0

/-- The machine right after reset, with the default width B = 1600 (R5) and the window at 0
(DESIGN CHOICE, log 3). The host has asked nothing yet. -/
def State.reset : State := State.resetAt .b1600 0

end Sys2Proof.Machine
end

