-- ==== Sys2Proof/Machine/Operands.lean ====
section
/-! DEFINITION. The operands of the commands: the fields of CFG and OUTLEN, the captured operands, the
lane operand of XORLANE and LOADLANE, and the session parameters INIT latches
(spec 10_state.md R35 to R37; 41_sponge.md R145, R155; 70_reset_and_hazards.md R234). -/

namespace Sys2Proof.Machine

/-- CFG.MODE, bits 2:0 (R35). -/
def cfgMode (v : Word) : BitVec 3 := v.extractLsb' 0 3

/-- CFG.NR, bits 8:4 (R35). -/
def cfgNr (v : Word) : BitVec 5 := v.extractLsb' 4 5

/-- CFG.RATE, bits 26:16 (R35). -/
def cfgRate (v : Word) : BitVec 11 := v.extractLsb' 16 11

/-- CFG.SFXLEN, bits 31:28 (R35). -/
def cfgSfxlen (v : Word) : BitVec 4 := v.extractLsb' 28 4

/-- CFG.SFX, bits 39:32 (R35). -/
def cfgSfx (v : Word) : BitVec 8 := v.extractLsb' 32 8

/-- OUTLEN.D, bits 31:0 (R36). -/
def outlenD (v : Word) : BitVec 32 := v.extractLsb' 0 32

/-- CFG's store mask (R35): a write keeps every non-reserved field as written. -/
def cfgMask : Word := 0x000000FFF7FF01F7

/-- OUTLEN's store mask: the D field only (R9, R36). -/
def outlenMask : Word := BitVec.ofNat 64 (2 ^ Config.outlenBits - 1)

/-- The operand registers as they stand, which a command captures at issue (R48, R234). -/
def State.operands (s : State) : Operands := ⟨s.din, s.cfg, s.outlen⟩

/-- The lane operand DIN[W−1:0] of XORLANE and LOADLANE (R121, R122); bits W..63 are ignored (R64). -/
def laneOperand (w : Width) (din : Word) : BitVec w.laneBits := din.setWidth w.laneBits

/-- S with lane k XORed with `v` (R121). -/
def xorLane (w : Width) (k : Nat) (v : BitVec w.laneBits) (S : BitVec 1600) : BitVec 1600 :=
  S ^^^ placeLane v k

/-- S with lane k overwritten by `v` (R122). -/
def loadLane (w : Width) (k : Nat) (v : BitVec w.laneBits) (S : BitVec 1600) : BitVec 1600 :=
  S &&& ~~~(placeLane (BitVec.allOnes w.laneBits) k) ||| placeLane v k

/-- What INIT latches, and the output length d (R31, R155). -/
structure Session where
  ract : BitVec 11
  nract : BitVec 5
  sfxlenact : BitVec 4
  sfxact : BitVec 8
  d : BitVec 32
deriving DecidableEq, Repr

/-- A facade row of the mode table (R145). -/
structure FacadeRow where
  /-- capacity c -/
  capacity : Nat
  /-- the suffix as a word whose bit i is the i-th bit appended (R146) -/
  sfx : BitVec 8
  /-- the number of suffix bits -/
  sfxlen : BitVec 4
  /-- the fixed digest length in bits; none where OUTLEN.D gives d -/
  dfix : Option (BitVec 32)
deriving DecidableEq, Repr

/-- The rows of R145 for the facade modes 0..5. -/
def facadeRow (mode : Nat) : Option FacadeRow :=
  match mode with
  | 0 => some ⟨448, 0x02, 2, some 224⟩
  | 1 => some ⟨512, 0x02, 2, some 256⟩
  | 2 => some ⟨768, 0x02, 2, some 384⟩
  | 3 => some ⟨1024, 0x02, 2, some 512⟩
  | 4 => some ⟨256, 0x0F, 4, none⟩
  | 5 => some ⟨512, 0x0F, 4, none⟩
  | _ => none

/-- The output length d a facade row and OUTLEN give (R145, R155). -/
def FacadeRow.length (row : FacadeRow) (outlen : Word) : BitVec 32 :=
  match row.dfix with
  | some d => d
  | none => outlenD outlen

/-- The session a facade row opens: r = 1600 − c and nr = 24 (R145). -/
def FacadeRow.session (row : FacadeRow) (outlen : Word) : Session where
  ract := BitVec.ofNat 11 (1600 - row.capacity)
  nract := 24
  sfxlenact := row.sfxlen
  sfxact := row.sfx
  d := row.length outlen

/-- The session RAW mode opens, from the fields of CFG and OUTLEN (R145, R155). -/
def rawSession (cfg outlen : Word) : Session where
  ract := cfgRate cfg
  nract := cfgNr cfg
  sfxlenact := cfgSfxlen cfg
  sfxact := cfgSfx cfg
  d := outlenD outlen

/-- 1 ≤ nr ≤ NRMAX (40_keccak_p.md R113). -/
def legalNr (w : Width) (nr : Nat) : Bool := 1 ≤ nr && nr ≤ w.nrmax

/-- The fields RAW mode reads are legal: 1 ≤ r ≤ B − 1, 1 ≤ nr ≤ NRMAX, sfxlen ≤ 8 (R155, R204). -/
def rawLegal (w : Width) (cfg : Word) : Bool :=
  1 ≤ (cfgRate cfg).toNat && (cfgRate cfg).toNat < w.bits && legalNr w (cfgNr cfg).toNat &&
    (cfgSfxlen cfg).toNat ≤ 8

/-- The session INIT would open from CFG; none where the configuration is illegal (R155, R204). d may
still be 0. -/
def sessionOf (w : Width) (cfg outlen : Word) : Option Session :=
  match facadeRow (cfgMode cfg).toNat with
  | some row => if w = .b1600 then some (row.session outlen) else none
  | none =>
    if (cfgMode cfg).toNat = 6 then
      if rawLegal w cfg then some (rawSession cfg outlen) else none
    else none

end Sys2Proof.Machine
end

