-- ==== Sys2Proof/Machine/Flags.lean ====
section
/-! DEFINITION. The flags: the codes of PHASE and ERR, the words STATUS, POS, CUR and PARAM pack, and
the conditions a command is checked against at issue (spec 10_state.md R27, R34, R39 to R41, R46;
60_exceptions.md R201 to R206). -/

namespace Sys2Proof.Machine

/-- The value of PHASE (R27). -/
def Phase.code : Phase → BitVec 2
  | .idle => 0
  | .absorb => 1
  | .squeeze => 2
  | .done => 3

/-- The value of ERR (R201). -/
def ErrCode.code : ErrCode → BitVec 4
  | .none => 0
  | .illegal => 1
  | .phase => 2
  | .config => 3
  | .outlen => 4
  | .overrun => 5
  | .busy => 6

/-- BUSY: a command is between its issue and its completion (R32). -/
def State.busy (s : State) : Bool := s.inflight.isSome

/-- A field of `n` bits at bit `lo` of a register word. -/
def fieldAt {n : Nat} (v : BitVec n) (lo : Nat) : Word := v.setWidth 64 <<< lo

/-- STATUS: BUSY at 0, PHASE at 2:1, ERR at 7:4, ERROPC at 11:8 (R39). -/
def State.statusWord (s : State) : Word :=
  fieldAt (BitVec.ofBool s.busy) 0 ||| fieldAt s.phase.code 1 ||| fieldAt s.err.code 4 |||
    fieldAt s.erropc 8

/-- POS: APOS at 10:0, SPOS at 26:16, REMAIN at 63:32 (R40). -/
def State.posWord (s : State) : Word :=
  fieldAt s.apos 0 ||| fieldAt s.spos 16 ||| fieldAt s.remain 32

/-- CUR: RACT at 10:0, NRACT at 20:16, SFXLENACT at 27:24, SFXACT at 39:32 (R41). -/
def State.curWord (s : State) : Word :=
  fieldAt s.ract 0 ||| fieldAt s.nract 16 ||| fieldAt s.sfxlenact 24 ||| fieldAt s.sfxact 32

/-- PARAM: B at 10:0, W at 22:16, L at 26:24, NRMAX at 36:32 (R34). -/
def paramWord (w : Width) : Word :=
  fieldAt (BitVec.ofNat 11 w.bits) 0 ||| fieldAt (BitVec.ofNat 7 w.laneBits) 16 |||
    fieldAt (BitVec.ofNat 3 w.log) 24 ||| fieldAt (BitVec.ofNat 5 w.nrmax) 32

/-- The phase table of R203. -/
def phaseAllows : Instr → Phase → Bool
  | .nop, _ => true
  | .init, _ => true
  | .absorb _, p => p == .absorb
  | .final, p => p == .absorb
  | .squeeze _, p => p == .squeeze
  | .permute, p => p == .idle
  | .xorlane _, p => p == .idle
  | .loadlane _, p => p == .idle
  | .clear, _ => true

/-- INIT's own checks: CONFIG (R204), then OUTLEN (R205). -/
def initError (o : Operands) (s : State) : ErrCode :=
  match sessionOf s.width o.cfg o.outlen with
  | none => .config
  | some p => if p.d = 0 then .outlen else .none

/-- PERMUTE's own check: CONFIG unless 1 ≤ CFG.NR ≤ NRMAX (R120, R204). -/
def permuteError (o : Operands) (s : State) : ErrCode :=
  if legalNr s.width (cfgNr o.cfg).toNat then .none else .config

/-- SQUEEZE's own check: OVERRUN when n > REMAIN (R158, R206). -/
def squeezeError (n : Nat) (s : State) : ErrCode := if n > s.remain.toNat then .overrun else .none

/-- The checks of a legal command after BUSY, the sticky error and ILLEGAL, in the order PHASE, CONFIG,
OUTLEN, OVERRUN (R209): the first code that applies, or none where the command is accepted. -/
def commandError (i : Instr) (o : Operands) (s : State) : ErrCode :=
  if phaseAllows i s.phase = false then .phase
  else
    match i with
    | .nop => .none
    | .init => initError o s
    | .absorb _ => .none
    | .final => .none
    | .squeeze n => squeezeError n s
    | .permute => permuteError o s
    | .xorlane _ => .none
    | .loadlane _ => .none
    | .clear => .none

end Sys2Proof.Machine
end

