-- ==== Sys2Proof/Machine/Ops.lean ====
section
/-! DEFINITION. The shared operations: recording a rejection and leaving the error state, issuing a
command, the two bit-level primitives of the sponge, and the register window
(spec 60_exceptions.md R200, R207 to R213; 70_reset_and_hazards.md R233, R234; 41_sponge.md R147, R148;
20_memory.md R60 to R69; 10_state.md R34 to R44). -/

namespace Sys2Proof.Machine

/-! ## Errors -/

/-- Recording a rejection with code `e` of a word whose OPC field is `opc`: the first error since the
last CLEAR or reset writes ERR and ERROPC, a later one records nothing, and nothing else changes
(R200, R210, R211, R213). This is the machine's only exception entry; it transfers no control. -/
def State.reject (e : ErrCode) (opc : BitVec 4) (s : State) : State :=
  if s.err = .none then { s with err := e, erropc := opc } else s

/-- Leaving the error state, as CLEAR and reset do (R212). -/
def State.clearError (s : State) : State := { s with err := .none, erropc := 0 }

/-! ## Issue -/

/-- LAT of the next accepted command, the schedule's choice (R10, R233; log 2). -/
def State.nextLatency (s : State) : Nat := s.latency.headD 0

/-- The schedule after its next choice is used up. -/
def State.popLatency (s : State) : State := { s with latency := s.latency.tail }

/-- The command goes into flight: BUSY becomes 1 and the operands are captured (R233, R234). -/
def State.launch (i : Instr) (left : Nat) (s : State) : State :=
  { s with inflight := some ⟨i, s.operands, left⟩, latency := s.latency.tail }

/-- An accepted command. With LAT = 0 it completes before the next host access, so its effect is
applied here; otherwise it stays in flight for that many later host accesses (R233). -/
def accept (i : Instr) (effect : Operands → State → State) (s : State) : State :=
  if s.nextLatency = 0 then effect s.operands s.popLatency else s.launch i s.nextLatency

/-- A CMD write of the legal command `i`, whose effect at completion is `effect`: the checks of R209 in
their order (BUSY, the sticky error, PHASE, CONFIG, OUTLEN, OVERRUN), then acceptance. -/
def issue (i : Instr) (effect : Operands → State → State) (s : State) :
    Host.Outcome State Fault Refusal :=
  if s.busy then .next (s.reject .busy i.opcode)
  else if s.err ≠ .none ∧ i ≠ .clear then .next s
  else if commandError i s.operands s ≠ .none then
    .next (s.reject (commandError i s.operands s) i.opcode)
  else .next (accept i effect s)

/-- A CMD write of an ILLEGAL word, in the same order of checks (R202, R207 to R209). -/
def State.illegalWord (v : Word) (s : State) : State :=
  if s.busy then s.reject .busy (fieldOpc v)
  else if s.err ≠ .none then s
  else s.reject .illegal (fieldOpc v)

/-! ## The bit-level primitives of the sponge -/

/-- What AbsorbBit works on: S and APOS. -/
structure Absorber where
  S : BitVec 1600
  apos : BitVec 11
deriving DecidableEq, Repr

/-- AbsorbBit(v) in a session with rate `r` and round count `nr` (R147). -/
def absorbBit (w : Width) (r : BitVec 11) (nr : BitVec 5) (a : Absorber) (v : Bool) : Absorber :=
  let S := if v then a.S ^^^ BitVec.twoPow 1600 a.apos.toNat else a.S
  if a.apos + 1 = r then ⟨keccakP w nr.toNat S, 0⟩ else ⟨S, a.apos + 1⟩

/-- AbsorbBit of each bit of a string, in order. -/
def absorbBits (w : Width) (r : BitVec 11) (nr : BitVec 5) (a : Absorber) (bits : List Bool) : Absorber :=
  bits.foldl (absorbBit w r nr) a

/-- The first n bits of a word, ascending (R65). -/
def wordBits {m : Nat} (v : BitVec m) (n : Nat) : List Bool := (List.range n).map fun i => v.getLsbD i

/-- `while APOS != RACT - 1: AbsorbBit(0)` of FINAL (R157). The loop runs at most `RACT` times when
1 ≤ RACT; the fuel 2^11 covers every value of APOS. -/
def absorbZeros (w : Width) (r : BitVec 11) (nr : BitVec 5) : Nat → Absorber → Absorber
  | 0, a => a
  | fuel + 1, a =>
    if a.apos = r - 1 then a else absorbZeros w r nr fuel (absorbBit w r nr a false)

/-- What SqueezeBit works on: S and SPOS. -/
structure Squeezer where
  S : BitVec 1600
  spos : BitVec 11
deriving DecidableEq, Repr

/-- SqueezeBit()'s first part: permute when the current block is used up (R148). -/
def refill (w : Width) (r : BitVec 11) (nr : BitVec 5) (q : Squeezer) : Squeezer :=
  if q.spos = r then ⟨keccakP w nr.toNat q.S, 0⟩ else q

/-- SqueezeBit() (R148): the bit read and what is left. -/
def squeezeBit (w : Width) (r : BitVec 11) (nr : BitVec 5) (q : Squeezer) : Bool × Squeezer :=
  let p := refill w r nr q
  (p.S.getLsbD p.spos.toNat, ⟨p.S, p.spos + 1⟩)

/-- n SqueezeBits in order: the bits, first one first, and what is left (R151, R158). -/
def squeezeBits (w : Width) (r : BitVec 11) (nr : BitVec 5) : Nat → Squeezer → List Bool × Squeezer
  | 0, q => ([], q)
  | n + 1, q =>
    let b := squeezeBit w r nr q
    let rest := squeezeBits w r nr n b.2
    (b.1 :: rest.1, rest.2)

/-- The word whose bit i is the i-th bit of a string, the bits above being 0 (R66, R158). -/
def bitsWord (n : Nat) : List Bool → BitVec n
  | [] => 0
  | b :: rest => (if b then 1 else 0) ||| bitsWord n rest <<< 1

/-! ## The register window -/

/-- The window is 0x200 bytes long (R60). -/
def windowBytes : Nat := 0x200

end Sys2Proof.Machine

namespace Sys2Proof

/-- A register's offset (R61). -/
def Reg.offset : Reg → Nat
  | .param => 0x000
  | .cfg => 0x008
  | .outlen => 0x010
  | .din => 0x018
  | .cmd => 0x020
  | .status => 0x028
  | .pos => 0x030
  | .cur => 0x038
  | .dout => 0x040
  | .lane k => 0x100 + 8 * k.val

/-- The registers whose reads return an unspecified value while BUSY = 1 (R235). -/
def Reg.unspecifiedWhileBusy : Reg → Bool
  | .param => false
  | .cfg => false
  | .outlen => false
  | .din => false
  | .cmd => false
  | .status => false
  | .pos => true
  | .cur => true
  | .dout => true
  | .lane _ => true

end Sys2Proof

namespace Sys2Proof.Machine

/-- The location at an aligned offset; none where R61 lists it as reserved. -/
def regAt (off : Nat) : Option Reg :=
  if off = 0x000 then some .param
  else if off = 0x008 then some .cfg
  else if off = 0x010 then some .outlen
  else if off = 0x018 then some .din
  else if off = 0x020 then some .cmd
  else if off = 0x028 then some .status
  else if off = 0x030 then some .pos
  else if off = 0x038 then some .cur
  else if off = 0x040 then some .dout
  else if h : 0x100 ≤ off ∧ off ≤ 0x1C0 then some (.lane ⟨(off - 0x100) / 8, by omega⟩)
  else none

/-- The offset of a host address in the window; none where the address is not in it (R60). -/
def windowOffset (base addr : Nat) : Option Nat :=
  if base ≤ addr ∧ addr < base + windowBytes then some (addr - base) else none

/-- The only supported access: 8 bytes at an 8-byte-aligned offset (R62). -/
def supportedAccess (off size : Nat) : Bool := size == 8 && off % 8 == 0

/-- What a register reads as when BUSY = 0 (R34 to R43). -/
def State.regValue (s : State) : Reg → Word
  | .param => paramWord s.width
  | .cfg => s.cfg
  | .outlen => s.outlen
  | .din => s.din
  | .cmd => 0
  | .status => s.statusWord
  | .pos => s.posWord
  | .cur => s.curWord
  | .dout => s.dout
  | .lane k => (stateLane s.width.laneBits s.S k.val).setWidth 64

/-- The host is given `v`; a read changes nothing of the block (R69). -/
def State.answer (v : Word) (s : State) : State := { s with reply := some v }

/-- The host is given an unspecified value: the next free value (R235; log 6). -/
def State.answerFree (s : State) : State :=
  { s with reply := some (Config.busyRead s.freeIx), freeIx := s.freeIx + 1 }

/-- A supported read of a register (R34 to R43, R235). -/
def State.readReg (r : Reg) (s : State) : State :=
  if s.busy = true ∧ r.unspecifiedWhileBusy = true then s.answerFree else s.answer (s.regValue r)

/-- `MemRead(addr, size)`: reserved locations read 0 (R44), and so does an access that is not 8 bytes
wide or not aligned (R62). -/
def hostRead (addr size : Nat) (s : State) : Host.Outcome State Fault Refusal :=
  match windowOffset s.windowBase addr with
  | none => .fault (.outsideWindow addr)
  | some off =>
    if supportedAccess off size = false then .next (s.answer 0)
    else
      match regAt off with
      | none => .next (s.answer 0)
      | some r => .next (s.readReg r)

/-- Byte j of a register value, bits 8j+7..8j (R63). -/
def regByte (v : Word) (j : Nat) : BitVec 8 := v.extractLsb' (8 * j) 8

end Sys2Proof.Machine
end

