-- ==== Sys2Proof/Machine/Control.lean ====
section
/-! DEFINITION. The control commands NOP and CLEAR (spec 42_control.md R180, R181). -/

namespace Sys2Proof.Machine

/-- NOP at completion: nothing (R180). -/
def nopEffect (_ : Operands) (s : State) : State := s

/-- CLEAR at completion: the session ends, S, DOUT and the session registers are zeroed and the error is
cleared; CFG, OUTLEN and DIN are kept (R181, R212). -/
def clearEffect (_ : Operands) (s : State) : State :=
  { s.clearError with
    S := 0
    phase := .idle
    apos := 0
    spos := 0
    remain := 0
    ract := 0
    nract := 0
    sfxlenact := 0
    sfxact := 0
    dout := 0 }

/-- NOP (R180). -/
def execNop (s : State) : Host.Outcome State Fault Refusal := issue .nop nopEffect s

/-- CLEAR (R181). -/
def execClear (s : State) : Host.Outcome State Fault Refusal := issue .clear clearEffect s

end Sys2Proof.Machine
end

