-- ==== Sys2Proof/Machine/Engine.lean ====
section
/-! DEFINITION. The engine commands PERMUTE, XORLANE and LOADLANE (spec 40_keccak_p.md R120 to R122). -/

namespace Sys2Proof.Machine

/-- PERMUTE at completion: KeccakP(B, CFG.NR) of S, with the captured CFG (R120). -/
def permuteEffect (o : Operands) (s : State) : State :=
  { s with S := keccakP s.width (cfgNr o.cfg).toNat s.S }

/-- XORLANE k at completion: lane k is XORed with the captured DIN[W−1:0] (R121). -/
def xorlaneEffect (k : Nat) (o : Operands) (s : State) : State :=
  { s with S := xorLane s.width k (laneOperand s.width o.din) s.S }

/-- LOADLANE k at completion: lane k becomes the captured DIN[W−1:0] (R122). -/
def loadlaneEffect (k : Nat) (o : Operands) (s : State) : State :=
  { s with S := loadLane s.width k (laneOperand s.width o.din) s.S }

/-- PERMUTE (R120). -/
def execPermute (s : State) : Host.Outcome State Fault Refusal := issue .permute permuteEffect s

/-- XORLANE k (R121). -/
def execXorlane (k : Nat) (s : State) : Host.Outcome State Fault Refusal :=
  issue (.xorlane k) (xorlaneEffect k) s

/-- LOADLANE k (R122). -/
def execLoadlane (k : Nat) (s : State) : Host.Outcome State Fault Refusal :=
  issue (.loadlane k) (loadlaneEffect k) s

end Sys2Proof.Machine
end

