-- ==== Sys2Proof/Machine/Sponge.lean ====
section
/-! DEFINITION. The sponge commands INIT, ABSORB, FINAL and SQUEEZE (spec 41_sponge.md R155 to R158). -/

namespace Sys2Proof.Machine

/-- INIT at completion, with the session the captured CFG and OUTLEN select (R155). An accepted INIT
always has one (R200); without one there is no effect. -/
def initEffect (o : Operands) (s : State) : State :=
  match sessionOf s.width o.cfg o.outlen with
  | none => s
  | some p =>
    { s with
      S := 0
      ract := p.ract
      nract := p.nract
      sfxlenact := p.sfxlenact
      sfxact := p.sfxact
      apos := 0
      spos := 0
      remain := p.d
      dout := 0
      phase := .absorb }

/-- What the session's AbsorbBits work on. -/
def State.absorber (s : State) : Absorber := ⟨s.S, s.apos⟩

/-- ABSORB n at completion: AbsorbBit of the captured DIN[0], …, DIN[n−1] (R156). -/
def absorbEffect (n : Nat) (o : Operands) (s : State) : State :=
  let a := absorbBits s.width s.ract s.nract s.absorber (wordBits o.din n)
  { s with S := a.S, apos := a.apos }

/-- FINAL's AbsorbBits: the suffix, a 1, zeros until APOS = RACT − 1, a 1 (R146, R157). -/
def finalAbsorb (s : State) : Absorber :=
  let bit := absorbBit s.width s.ract s.nract
  let a := absorbBits s.width s.ract s.nract s.absorber (wordBits s.sfxact s.sfxlenact.toNat)
  bit (absorbZeros s.width s.ract s.nract 2048 (bit a true)) true

/-- FINAL at completion (R157). -/
def finalEffect (_ : Operands) (s : State) : State :=
  let a := finalAbsorb s
  { s with S := a.S, apos := a.apos, spos := 0, phase := .squeeze }

/-- SQUEEZE n at completion: n SqueezeBits into DOUT; REMAIN falls by n, and reaching 0 ends the session
(R158). -/
def squeezeEffect (n : Nat) (_ : Operands) (s : State) : State :=
  let q := squeezeBits s.width s.ract s.nract n ⟨s.S, s.spos⟩
  let remain := s.remain - BitVec.ofNat 32 n
  { s with
    S := q.2.S
    spos := q.2.spos
    dout := bitsWord 64 q.1
    remain := remain
    phase := if remain = 0 then .done else s.phase }

/-- INIT (R155). -/
def execInit (s : State) : Host.Outcome State Fault Refusal := issue .init initEffect s

/-- ABSORB n (R156). -/
def execAbsorb (n : Nat) (s : State) : Host.Outcome State Fault Refusal :=
  issue (.absorb n) (absorbEffect n) s

/-- FINAL (R157). -/
def execFinal (s : State) : Host.Outcome State Fault Refusal := issue .final finalEffect s

/-- SQUEEZE n (R158). -/
def execSqueeze (n : Nat) (s : State) : Host.Outcome State Fault Refusal :=
  issue (.squeeze n) (squeezeEffect n) s

end Sys2Proof.Machine
end

