-- ==== Sys2Proof/Machine/Dispatch.lean ====
section
/-! DEFINITION. The dispatch: a host write of the command `i` to CMD (spec 60_exceptions.md R200, R209),
one arm for each row of the opcode table. -/

namespace Sys2Proof.Machine

def exec (i : Instr) (s : State) : Host.Outcome State Fault Refusal :=
  match i with
  | .nop => Sys2Proof.Machine.execNop s
  | .init => Sys2Proof.Machine.execInit s
  | .absorb n => Sys2Proof.Machine.execAbsorb n s
  | .final => Sys2Proof.Machine.execFinal s
  | .squeeze n => Sys2Proof.Machine.execSqueeze n s
  | .permute => Sys2Proof.Machine.execPermute s
  | .xorlane k => Sys2Proof.Machine.execXorlane k s
  | .loadlane k => Sys2Proof.Machine.execLoadlane k s
  | .clear => Sys2Proof.Machine.execClear s

end Sys2Proof.Machine
end

