-- ==== Sys2Proof/Machine/Bus.lean ====
section
/-! DEFINITION. The host's writes, the platform's reset, and the completion of a command in flight
(spec 20_memory.md R60 to R70; 70_reset_and_hazards.md R230 to R236). -/

namespace Sys2Proof.Machine

/-- The effect of each command at its completion. -/
def effectOf : Instr → Operands → State → State
  | .nop => nopEffect
  | .init => initEffect
  | .absorb n => absorbEffect n
  | .final => finalEffect
  | .squeeze n => squeezeEffect n
  | .permute => permuteEffect
  | .xorlane k => xorlaneEffect k
  | .loadlane k => loadlaneEffect k
  | .clear => clearEffect

/-- The in-flight command `f` completes: its effect, computed from its captured operands, and BUSY <- 0
at the same instant (R233, R234). -/
def complete (f : InFlight) (s : State) : State :=
  effectOf f.instr f.ops { s with inflight := none }

/-- A write of a word to CMD: it issues the command the word encodes (R38, R72, R209). -/
def issueWord (v : Word) (s : State) : Host.Outcome State Fault Refusal :=
  match decode v with
  | .ok i => exec i s
  | .error _ => .next (s.illegalWord v)

/-- A supported write to a register: CFG, OUTLEN and DIN store the value at once, CMD issues, and the
read-only registers ignore it (R35 to R38, R69, R236). -/
def writeReg (r : Reg) (v : Word) (s : State) : Host.Outcome State Fault Refusal :=
  match r with
  | .param => .next s
  | .cfg => .next { s with cfg := v &&& cfgMask }
  | .outlen => .next { s with outlen := v &&& outlenMask }
  | .din => .next { s with din := v }
  | .cmd => issueWord v s
  | .status => .next s
  | .pos => .next s
  | .cur => .next s
  | .dout => .next s
  | .lane _ => .next s

/-- `MemWrite(addr, size, v)`: a write to a reserved location is ignored (R44), and so is one that is not
8 bytes wide or not aligned (R62). -/
def hostWrite (addr size : Nat) (v : Word) (s : State) : Host.Outcome State Fault Refusal :=
  match windowOffset s.windowBase addr with
  | none => .fault (.outsideWindow addr)
  | some off =>
    if supportedAccess off size = false then .next s
    else
      match regAt off with
      | none => .next s
      | some r => writeReg r v s

/-- One read of STATUS in the host's POLL loop: while BUSY = 1 the loop goes on (R71, R88). -/
def hostPoll (s : State) : State :=
  if s.busy then { s.answer s.statusWord with queue := .poll :: s.queue } else s.answer s.statusWord

/-- Reset: every piece of the block's state takes the value of the table of R230, and a command in flight
is abandoned (R231). The host's own record, the build and the platform are not the block's. -/
def State.afterReset (s : State) : State :=
  { State.resetAt s.width s.windowBase with
    queue := s.queue
    latency := s.latency
    reply := s.reply
    freeIx := s.freeIx }

/-- One transaction. -/
def hostEvent (e : HostEvent) (s : State) : Host.Outcome State Fault Refusal :=
  match e with
  | .write addr size v => hostWrite addr size v s
  | .read addr size => hostRead addr size s
  | .poll => .next (hostPoll s)
  | .reset => .next s.afterReset

/-- One host access nearer to the completion of the command in flight (R233; log 2). -/
def State.tick (s : State) : State :=
  { s with inflight := s.inflight.map fun f => { f with left := f.left - 1 } }

/-- The next transaction is taken from the queue and performed; with none the block holds its state
(R219). -/
def takeEvent (s : State) : Host.Outcome State Fault Refusal :=
  match s.queue with
  | [] => .next s
  | e :: rest => hostEvent e { s.tick with queue := rest }

/-- The command in flight whose completion comes before the next transaction: its latency is used up, or
the host has no further access to make (R10, R233; log 2). -/
def State.completing (s : State) : Option InFlight :=
  match s.inflight with
  | none => none
  | some f => if f.left = 0 ∨ s.queue = [] then some f else none

/-- The host's write of word `v` to CMD, as a transaction (R38, R61). -/
def State.cmdWrite (s : State) (v : Word) : HostEvent := .write (s.windowBase + Reg.cmd.offset) 8 v

end Sys2Proof.Machine
end

