-- ==== Sys2Proof/Machine/Step.lean ====
section
/-! DEFINITION. One step: the completion of the command in flight, or one transaction
(spec 00_scope.md R4, 70_reset_and_hazards.md R233; log 1, 2). -/

namespace Sys2Proof.Machine

/-- One step of the machine. -/
def step (s : State) : Host.Outcome State Fault Refusal :=
  match s.completing with
  | some f => .next (complete f s)
  | none => takeEvent s

/-- `s` with the host about to write the word of `nbits` bits and value `w` to CMD, as a command that
completes before the next access (LAT = 0): the very next step issues and runs it (log 1). -/
def State.withFetchWord (s : State) (nbits w : Nat) : State :=
  { s with queue := s.cmdWrite (tableWord nbits w) :: s.queue, latency := 0 :: s.latency }

end Sys2Proof.Machine
end

