-- ==== Sys2Proof/Machine/SpongeRef.lean ====
section
/-! DEFINITION. The sponge construction as the source states it, on bit strings
(spec 41_sponge.md R140 to R144, R146, R151). No command calls it: it is what the bit-level controller is
compared with (R149 to R151). A bit string is a list, index 0 first (00_scope.md R11). -/

namespace Sys2Proof.Machine

/-- `j = (−m − 2) mod r`, with the non-negative residue of 00_scope.md R13 (R142). -/
def padZeros (r m : Nat) : Nat := ((-(m : Int) - 2) % (r : Int)).toNat

/-- pad(r, m) = 1 || 0^j || 1 (R142). -/
def pad (r m : Nat) : List Bool := true :: (List.replicate (padZeros r m) false ++ [true])

/-- The first `n` r-bit blocks of a string, in order (R140, R143). -/
def blocks (r : Nat) : Nat → List Bool → List (List Bool)
  | 0, _ => []
  | n + 1, P => P.take r :: blocks r n (P.drop r)

/-- `S ⊕ (P_j || 0^(B − r))`, then the permutation (R140, R143). -/
def absorbBlock (w : Width) (nr : Nat) (S : BitVec 1600) (P : List Bool) : BitVec 1600 :=
  keccakP w nr (S ^^^ bitsWord 1600 P)

/-- The state after the absorption loop over the complete r-bit blocks of `P`, from state 0 (R143). -/
def absorbString (w : Width) (r nr : Nat) (P : List Bool) : BitVec 1600 :=
  (blocks r (P.length / r) P).foldl (absorbBlock w nr) 0

/-- Trunc_r(S), the first r bits of the state (R144). -/
def rateBits (r : Nat) (S : BitVec 1600) : List Bool := wordBits S r

/-- The state after `n` permutations. -/
def permuteTimes (w : Width) (nr : Nat) : Nat → BitVec 1600 → BitVec 1600
  | 0, S => S
  | n + 1, S => permuteTimes w nr n (keccakP w nr S)

/-- The first `n` blocks of the squeeze stream Trunc_r(S) || Trunc_r(f(S)) || … (R144, R151). -/
def squeezeStream (w : Width) (r nr : Nat) : Nat → BitVec 1600 → List Bool
  | 0, _ => []
  | n + 1, S => rateBits r S ++ squeezeStream w r nr n (keccakP w nr S)

/-- The first `d` bits of the squeeze stream (R144, R151); `d` blocks are enough since r ≥ 1. -/
def squeezeString (w : Width) (r nr : Nat) (S : BitVec 1600) (d : Nat) : List Bool :=
  (squeezeStream w r nr d S).take d

/-- Sponge(r, N, d) of R140. -/
def spongeRef (w : Width) (r nr : Nat) (N : List Bool) (d : Nat) : List Bool :=
  squeezeString w r nr (absorbString w r nr (N ++ pad r N.length)) d

end Sys2Proof.Machine
end

