-- ==== Sys2Proof/Machine/Facade.lean ====
section
/-! DEFINITION. The six facade functions: byte strings as bit strings, the functions themselves, and the
host procedure that computes them (spec 20_memory.md R67; 41_sponge.md R145, R146, R160, R161). -/

namespace Sys2Proof.Machine

/-- Message byte j, bit i becomes message bit 8j + i (R67). -/
def bytesToBits (bytes : List (BitVec 8)) : List Bool := bytes.flatMap fun b => wordBits b 8

/-- Output bit i becomes bit i mod 8 of byte i div 8; the bits of the last byte that no output bit fills
are 0 (R67, R161). `n` is the number of bytes to make. -/
def bitsToBytes : Nat → List Bool → List (BitVec 8)
  | 0, _ => []
  | n + 1, bits => bitsWord 8 (bits.take 8) :: bitsToBytes n (bits.drop 8)

/-- The ceil(d/8) output bytes of d output bits (R161). -/
def outputBytes (bits : List Bool) : List (BitVec 8) := bitsToBytes ((bits.length + 7) / 8) bits

/-- The facade function of mode row `row` on a message (R145, R146, R160): the suffix is appended, leftmost
bit first, and the sponge of B = 1600 is applied. The output length is the row's fixed one, or `outlen`'s
field D for SHAKE. -/
def facadeFunction (row : FacadeRow) (message : List (BitVec 8)) (outlen : Word) : List (BitVec 8) :=
  outputBytes
    (spongeRef .b1600 (1600 - row.capacity) 24
      (bytesToBits message ++ wordBits row.sfx row.sfxlen.toNat) (row.length outlen).toNat)

/-- `WR r, v` (R88). -/
def wr (base : Nat) (r : Reg) (v : Word) : HostEvent := .write (base + r.offset) 8 v

/-- `RD r` (R88). -/
def rd (base : Nat) (r : Reg) : HostEvent := .read (base + r.offset) 8

/-- A command line and the POLL after it (R88, R160). -/
def command (base : Nat) (i : Instr) : List HostEvent := [wr base .cmd (encode i), .poll]

/-- A group of up to 8 bytes as a little-endian word (R67, R160). -/
def groupWord (group : List (BitVec 8)) : Word := bitsWord 64 (bytesToBits group)

/-- The absorb loop of R160: `n` bounds the number of groups. -/
def absorbEvents (base : Nat) : Nat → List (BitVec 8) → List HostEvent
  | 0, _ => []
  | n + 1, bytes =>
    if bytes = [] then []
    else
      wr base .din (groupWord (bytes.take 8)) ::
        (command base (.absorb (8 * (bytes.take 8).length)) ++ absorbEvents base n (bytes.drop 8))

/-- The accesses of R160 up to and including FINAL's POLL, for mode `mode` (0..5). OUTLEN is written for the
SHAKE modes only. -/
def openingEvents (base mode : Nat) (message : List (BitVec 8)) (outlen : Word) : List HostEvent :=
  wr base .cfg (BitVec.ofNat 64 mode ||| 24#64 <<< 4) ::
    ((if 4 ≤ mode then [wr base .outlen outlen] else []) ++ command base .init ++
      absorbEvents base message.length message ++ command base .final)

/-- The accesses of one turn of R160's squeeze loop. -/
def squeezeEvents (base n : Nat) : List HostEvent := command base (.squeeze n) ++ [rd base .dout]

/-- The machine runs until the host's transactions are all done and no command is in flight, in at most
`fuel` steps. -/
def settle : Nat → State → Option State
  | fuel, s =>
    if s.queue = [] ∧ s.inflight = none then some s
    else
      match fuel with
      | 0 => none
      | fuel + 1 =>
        match step s with
        | .next t => settle fuel t
        | .fault _ => none
        | .refused _ => none

/-- The host makes the accesses `events`, and the machine runs until they are done. -/
def transact (fuel : Nat) (events : List HostEvent) (s : State) : Option State :=
  settle fuel { s with queue := events }

/-- The squeeze loop of R160, `while REMAIN > 0`, at most `n` turns: the bits the DOUT reads give, in order,
and the state left. Each turn reads min(64, REMAIN) bits. -/
def squeezeLoop (fuel : Nat) : Nat → State → Option (List Bool × State)
  | 0, s => if s.remain = 0 then some ([], s) else none
  | n + 1, s =>
    if s.remain = 0 then some ([], s)
    else
      match transact fuel (squeezeEvents s.windowBase (min 64 s.remain.toNat)) s with
      | none => none
      | some t =>
        match t.reply, squeezeLoop fuel n t with
        | some v, some p => some (wordBits v (min 64 s.remain.toNat) ++ p.1, p.2)
        | _, _ => none

/-- The host procedure of R160, whole: the opening accesses, the squeeze loop, and the bits packed into
bytes as R161 says. `fuel` bounds the steps each group of accesses may take and `turns` the squeezes; none
means that one of them was too small, or that an access fell outside the window. -/
def facadeProcedure (fuel turns mode : Nat) (message : List (BitVec 8)) (outlen : Word) (s : State) :
    Option (List (BitVec 8)) :=
  match transact fuel (openingEvents s.windowBase mode message outlen) s with
  | none => none
  | some t => (squeezeLoop fuel turns t).map fun p => outputBytes p.1

end Sys2Proof.Machine
end

