-- ==== Sys2Proof/Machine/Asm.lean ====
section
/-! DEFINITION. The assembler: lines and pseudo-instructions as host transactions, and the reader of a
line's text (spec 30_encoding.md R88, R89). A text is a list of characters. -/

namespace Sys2Proof.Machine

/-- CFG's word from SETCFG's operands: `mode | nr<<4 | rate<<16 | sfxlen<<28 | sfx<<32` (R89). -/
def setcfgWord (mode nr rate sfxlen sfx : Nat) : Word :=
  BitVec.ofNat 64 mode ||| BitVec.ofNat 64 nr <<< 4 ||| BitVec.ofNat 64 rate <<< 16 |||
    BitVec.ofNat 64 sfxlen <<< 28 ||| BitVec.ofNat 64 sfx <<< 32

/-- The lines a line stands for, in order: a pseudo-instruction's expansion (R89), any other line
itself. -/
def expand : AsmLine → List AsmLine
  | .cmd i => [.cmd i]
  | .wr r v => [.wr r v]
  | .rd r => [.rd r]
  | .poll => [.poll]
  | .absorbB => [.cmd (.absorb 8)]
  | .absorbW => [.cmd (.absorb 64)]
  | .squeezeB => [.cmd (.squeeze 8)]
  | .squeezeW => [.cmd (.squeeze 64)]
  | .absorbV v n => [.wr .din v, .cmd (.absorb n)]
  | .xorlaneV k v => [.wr .din v, .cmd (.xorlane k)]
  | .loadlaneV k v => [.wr .din v, .cmd (.loadlane k)]
  | .setcfg mode nr rate sfxlen sfx => [.wr .cfg (setcfgWord mode nr rate sfxlen sfx)]

/-- The transactions of a line that is no pseudo-instruction; none for one that is (R88). -/
def lineEvents (base : Nat) : AsmLine → List HostEvent
  | .cmd i => [wr base .cmd (encode i)]
  | .wr r v => [wr base r v]
  | .rd r => [rd base r]
  | .poll => [.poll]
  | .absorbB => []
  | .absorbW => []
  | .squeezeB => []
  | .squeezeW => []
  | .absorbV _ _ => []
  | .xorlaneV _ _ => []
  | .loadlaneV _ _ => []
  | .setcfg _ _ _ _ _ => []

/-- The transactions of a program (R88, R89). -/
def assemble (base : Nat) (lines : List AsmLine) : List HostEvent :=
  (lines.flatMap expand).flatMap (lineEvents base)

/-! ## Reading a line's text -/

/-- A piece of a line: a word, or a punctuation character. -/
inductive Token
  | word (text : List Char)
  | punct (c : Char)
deriving DecidableEq, Repr

/-- Mnemonics are case-insensitive (R88): every letter is read as its capital. -/
def upper (c : Char) : Char := if 'a' ≤ c ∧ c ≤ 'z' then Char.ofNat (c.toNat - 32) else c

/-- Letters and digits make up words. -/
def wordChar (c : Char) : Bool := ('A' ≤ c ∧ c ≤ 'Z') ∨ ('0' ≤ c ∧ c ≤ '9')

/-- The word read so far, if any, as a token. -/
def closeWord (current : List Char) (rest : List Token) : List Token :=
  if current = [] then rest else .word current.reverse :: rest

/-- The tokens of a text; `current` holds the word being read, last character first. -/
def tokens : List Char → List Char → List Token
  | current, [] => closeWord current []
  | current, c :: rest =>
    if wordChar (upper c) then tokens (upper c :: current) rest
    else if c = ' ' then closeWord current (tokens [] rest)
    else closeWord current (.punct c :: tokens [] rest)

/-- The value of a digit in base 10 or 16. -/
def digitValue (radix : Nat) (c : Char) : Option Nat :=
  if '0' ≤ c ∧ c ≤ '9' then some (c.toNat - 48)
  else if radix = 16 ∧ 'A' ≤ c ∧ c ≤ 'F' then some (c.toNat - 55)
  else none

/-- The number whose digits are read after value `acc`. -/
def digits (radix : Nat) : Nat → List Char → Option Nat
  | acc, [] => some acc
  | acc, c :: rest =>
    match digitValue radix c with
    | some v => digits radix (acc * radix + v) rest
    | none => none

/-- A number: decimal, or hexadecimal with a `0x` prefix (R88). -/
def number : List Char → Option Nat
  | [] => none
  | ['0', 'X'] => none
  | '0' :: 'X' :: rest => digits 16 0 rest
  | text => digits 10 0 text

/-- A decimal count or lane index (R88). -/
def decimal : List Char → Option Nat
  | [] => none
  | text => digits 10 0 text

/-- A 64-bit value; a wider one is none (log 11). -/
def wordNumber (text : List Char) : Option Word :=
  match number text with
  | some v => if v < 2 ^ 64 then some (BitVec.ofNat 64 v) else none
  | none => none

/-- A register name; LANE is written with its index, LANE[k] (R61, R88). -/
def regName : List Token → Option Reg
  | [.word ['P', 'A', 'R', 'A', 'M']] => some .param
  | [.word ['C', 'F', 'G']] => some .cfg
  | [.word ['O', 'U', 'T', 'L', 'E', 'N']] => some .outlen
  | [.word ['D', 'I', 'N']] => some .din
  | [.word ['C', 'M', 'D']] => some .cmd
  | [.word ['S', 'T', 'A', 'T', 'U', 'S']] => some .status
  | [.word ['P', 'O', 'S']] => some .pos
  | [.word ['C', 'U', 'R']] => some .cur
  | [.word ['D', 'O', 'U', 'T']] => some .dout
  | [.word ['L', 'A', 'N', 'E'], .punct '[', .word k, .punct ']'] =>
    match number k with
    | some k => if h : k < 25 then some (.lane ⟨k, h⟩) else none
    | none => none
  | _ => none

/-- A lane operand: `k`, a decimal lane index, or `(x,y)` with k = 5y + x, where x and y are numbers
(R83, R88). -/
def laneOperandText : List Token → Option Nat
  | [.word k] => decimal k
  | [.punct '(', .word x, .punct ',', .word y, .punct ')'] =>
    match number x, number y with
    | some x, some y => if x < 5 ∧ y < 5 then some (5 * y + x) else none
    | _, _ => none
  | _ => none

/-- The tokens before and after the last comma. -/
def splitLastComma (ts : List Token) : Option (List Token × Token) :=
  match ts.reverse with
  | last :: .punct ',' :: rest => some (rest.reverse, last)
  | _ => none

/-- `MNEMONIC` with no operand. -/
def bareLine : List Char → Option AsmLine
  | ['N', 'O', 'P'] => some (.cmd .nop)
  | ['I', 'N', 'I', 'T'] => some (.cmd .init)
  | ['F', 'I', 'N', 'A', 'L'] => some (.cmd .final)
  | ['P', 'E', 'R', 'M', 'U', 'T', 'E'] => some (.cmd .permute)
  | ['C', 'L', 'E', 'A', 'R'] => some (.cmd .clear)
  | ['P', 'O', 'L', 'L'] => some .poll
  | ['A', 'B', 'S', 'O', 'R', 'B', 'B'] => some .absorbB
  | ['A', 'B', 'S', 'O', 'R', 'B', 'W'] => some .absorbW
  | ['S', 'Q', 'U', 'E', 'E', 'Z', 'E', 'B'] => some .squeezeB
  | ['S', 'Q', 'U', 'E', 'E', 'Z', 'E', 'W'] => some .squeezeW
  | _ => none

/-- `ABSORBV value, n` (R89), its n decimal as in the ABSORB line of its expansion (log 11). -/
def absorbVLine : List Token → Option AsmLine
  | [.word v, .punct ',', .word n] =>
    match wordNumber v, decimal n with
    | some v, some n => some (.absorbV v n)
    | _, _ => none
  | _ => none

/-- The lane and the value of `XORLANEV k, value` and `LOADLANEV k, value` (R89). DESIGN CHOICE (log 11):
the lane is read as XORLANE and LOADLANE read it, so `(x,y)` stands here too; R89 writes only `k`. -/
def laneValue (ts : List Token) : Option (Nat × Word) :=
  match splitLastComma ts with
  | some (lane, .word v) =>
    match laneOperandText lane, wordNumber v with
    | some k, some v => some (k, v)
    | _, _ => none
  | _ => none

/-- `SETCFG mode, nr, rate, sfxlen, sfx`. -/
def setcfgLine : List Token → Option AsmLine
  | [.word a, .punct ',', .word b, .punct ',', .word c, .punct ',', .word d, .punct ',', .word e] =>
    match number a, number b, number c, number d, number e with
    | some a, some b, some c, some d, some e => some (.setcfg a b c d e)
    | _, _, _, _, _ => none
  | _ => none

/-- `WR NAME, value`. -/
def wrLine (ts : List Token) : Option AsmLine :=
  match splitLastComma ts with
  | some (name, .word v) =>
    match regName name, wordNumber v with
    | some r, some v => some (.wr r v)
    | _, _ => none
  | _ => none

/-- A line that has operands, before its operands' ranges are checked (R88, R89). -/
def operandLine (mnemonic : List Char) (ts : List Token) : Option AsmLine :=
  match mnemonic, ts with
  | ['A', 'B', 'S', 'O', 'R', 'B'], [.word n] => (decimal n).map fun n => .cmd (.absorb n)
  | ['S', 'Q', 'U', 'E', 'E', 'Z', 'E'], [.word n] => (decimal n).map fun n => .cmd (.squeeze n)
  | ['X', 'O', 'R', 'L', 'A', 'N', 'E'], ts => (laneOperandText ts).map fun k => .cmd (.xorlane k)
  | ['L', 'O', 'A', 'D', 'L', 'A', 'N', 'E'], ts => (laneOperandText ts).map fun k => .cmd (.loadlane k)
  | ['A', 'B', 'S', 'O', 'R', 'B', 'V'], ts => absorbVLine ts
  | ['X', 'O', 'R', 'L', 'A', 'N', 'E', 'V'], ts => (laneValue ts).map fun p => .xorlaneV p.1 p.2
  | ['L', 'O', 'A', 'D', 'L', 'A', 'N', 'E', 'V'], ts => (laneValue ts).map fun p => .loadlaneV p.1 p.2
  | ['S', 'E', 'T', 'C', 'F', 'G'], ts => setcfgLine ts
  | ['W', 'R'], ts => wrLine ts
  | ['R', 'D'], ts => (regName ts).map .rd
  | _, _ => none

/-- The line a text holds, if it is one: `MNEMONIC [operand]` with operands in range (R88, R89). -/
def parseLine (text : List Char) : Option AsmLine :=
  let line :=
    match tokens [] text with
    | [.word m] => bareLine m
    | .word m :: rest => operandLine m rest
    | _ => none
  match line with
  | some l => if l.wellFormed then some l else none
  | none => none

end Sys2Proof.Machine
end

