-- ==== Sys2Proof/Machine/KeccakCube.lean ====
section
/-! DEFINITION. The permutation bit by bit on the cube S[x,y,z], as spec 40_keccak_p.md R100 to R112
writes it. No command calls it: it is what the lane form of Keccak.lean is compared with (R114). -/

namespace Sys2Proof.Machine

/-- toCube: the bit S[x,y,z] of the state array (10_state.md R21). -/
def cubeBit (w : Width) (S : BitVec 1600) (x y z : Nat) : Bool :=
  S.getLsbD (w.laneBits * (5 * y + x) + z)

/-- fromCube: the state array whose bit at linear position i is
`A[(i div W) mod 5, (i div W) div 5, i mod W]`, for i < B (10_state.md R21, R22). -/
def ofCube (w : Width) (A : Nat → Nat → Nat → Bool) : BitVec 1600 :=
  (List.range w.bits).foldl
    (fun S i =>
      if A (i / w.laneBits % 5) (i / w.laneBits / 5) (i % w.laneBits) then S ||| BitVec.twoPow 1600 i
      else S) 0

/-- `C[x,z]` of θ (R103). -/
def cubeC (w : Width) (S : BitVec 1600) (x z : Nat) : Bool :=
  cubeBit w S x 0 z ^^ cubeBit w S x 1 z ^^ cubeBit w S x 2 z ^^ cubeBit w S x 3 z ^^ cubeBit w S x 4 z

/-- `D[x,z] = C[(x-1) mod 5, z] ⊕ C[(x+1) mod 5, (z-1) mod W]` of θ (R103). -/
def cubeD (w : Width) (S : BitVec 1600) (x z : Nat) : Bool :=
  cubeC w S ((x + 4) % 5) z ^^ cubeC w S ((x + 1) % 5) ((z + (w.laneBits - 1)) % w.laneBits)

/-- θ (R103). -/
def thetaCube (w : Width) (S : BitVec 1600) : BitVec 1600 :=
  ofCube w fun x y z => cubeBit w S x y z ^^ cubeD w S x z

/-- ρ (R105): `A′[x,y,z] = A[x,y,(z − off[x,y]) mod W]`. -/
def rhoCube (w : Width) (S : BitVec 1600) : BitVec 1600 :=
  ofCube w fun x y z =>
    cubeBit w S x y ((z + (w.laneBits - rhoOffset w.laneBits x y)) % w.laneBits)

/-- π (R106): `A′[x,y,z] = A[(x + 3y) mod 5, x, z]`. -/
def piCube (w : Width) (S : BitVec 1600) : BitVec 1600 :=
  ofCube w fun x y z => cubeBit w S ((x + 3 * y) % 5) x z

/-- χ (R107). -/
def chiCube (w : Width) (S : BitVec 1600) : BitVec 1600 :=
  ofCube w fun x y z =>
    cubeBit w S x y z ^^ (!cubeBit w S ((x + 1) % 5) y z && cubeBit w S ((x + 2) % 5) y z)

/-- `RC[i][z]` (R109): 0 but for the positions 2^j − 1, j in 0..L, which hold rc(j + 7i). -/
def cubeRC (w : Width) (i z : Nat) : Bool :=
  (List.range (w.log + 1)).any fun j => z == 2 ^ j - 1 && rcBit (j + 7 * i)

/-- ι (R110). -/
def iotaCube (w : Width) (i : Nat) (S : BitVec 1600) : BitVec 1600 :=
  ofCube w fun x y z => cubeBit w S x y z ^^ (x == 0 && y == 0 && cubeRC w i z)

/-- Rnd (R111). -/
def rndCube (w : Width) (i : Nat) (S : BitVec 1600) : BitVec 1600 :=
  iotaCube w i (chiCube w (piCube w (rhoCube w (thetaCube w S))))

/-- KeccakP(B, nr) as R100 writes it: Rnd for i = 12 + 2L − nr, …, 12 + 2L − 1, ascending. -/
def keccakPCube (w : Width) (nr : Nat) (S : BitVec 1600) : BitVec 1600 :=
  (List.range nr).foldl (fun A t => rndCube w (12 + 2 * w.log - nr + t) A) S

end Sys2Proof.Machine
end

