-- ==== Sys2Proof/Safety.lean ====
section
/-! DEFINITION. The words the statements use: when a block can take a command, what a step answers, and
the invariant of every reachable state (spec 10_state.md R50). -/

namespace Sys2Proof.Machine

/-- The block can take a command: BUSY = 0 and no error is recorded (R207, R208). -/
abbrev State.Ready (s : State) : Prop := s.inflight = none ∧ s.err = .none

/-- The next accepted command completes before the next host access: LAT = 0 (R233). -/
abbrev State.AtOnce (s : State) : Prop := s.nextLatency = 0

/-- The state a step answers, if it answers one. -/
def nextState (o : Host.Outcome State Fault Refusal) : Option State :=
  match o with
  | .next s => some s
  | .fault _ => none
  | .refused _ => none

/-- The configurations INIT rejects with CONFIG, clause by clause (60_exceptions.md R204). -/
def InitConfigIllegal (s : State) : Prop :=
  (cfgMode s.cfg).toNat = 7 ∨
  ((cfgMode s.cfg).toNat ≤ 5 ∧ s.width ≠ .b1600) ∨
  ((cfgMode s.cfg).toNat = 6 ∧
    ((cfgRate s.cfg).toNat = 0 ∨ s.width.bits ≤ (cfgRate s.cfg).toNat ∨ (cfgNr s.cfg).toNat = 0 ∨
      s.width.nrmax < (cfgNr s.cfg).toNat ∨ 8 < (cfgSfxlen s.cfg).toNat))

/-- The phases each command is legal in, as the table of R203 lists them. -/
def legalPhases : Instr → List Phase
  | .nop => [.idle, .absorb, .squeeze, .done]
  | .init => [.idle, .absorb, .squeeze, .done]
  | .absorb _ => [.absorb]
  | .final => [.absorb]
  | .squeeze _ => [.squeeze]
  | .permute => [.idle]
  | .xorlane _ => [.idle]
  | .loadlane _ => [.idle]
  | .clear => [.idle, .absorb, .squeeze, .done]

/-- The host absorbs a message piece by piece: each piece is a value written to DIN and an ABSORB of n
bits (R156). -/
def absorbChunks : List (Word × Nat) → State → Option State
  | [], s => some s
  | (v, n) :: rest, s =>
    match nextState (exec (.absorb n) { s with din := v }) with
    | some t => absorbChunks rest t
    | none => none

/-- The message the pieces spell (R65). -/
def chunkBits (chunks : List (Word × Nat)) : List Bool := chunks.flatMap fun c => wordBits c.1 c.2

/-- The host reads the output piece by piece: a SQUEEZE of n bits, then DOUT's n low bits (R66, R158).
The answer is every bit read, in order, and the state left. -/
def squeezeChunks : List Nat → State → Option (List Bool × State)
  | [], s => some ([], s)
  | n :: rest, s =>
    match nextState (exec (.squeeze n) s) with
    | some t =>
      match squeezeChunks rest t with
      | some p => some (wordBits t.dout n ++ p.1, p.2)
      | none => none
    | none => none

/-- What holds of a command in flight: it is a legal command, the captured CFG and OUTLEN have only bits
that can be stored, and the checks of R209 passed on the captured operands and still pass (R200, R233,
R234). -/
structure FlightOk (s : State) (f : InFlight) : Prop where
  wellFormed : f.instr.wellFormed = true
  accepted : commandError f.instr f.ops s = .none
  cfg_reserved : f.ops.cfg &&& ~~~cfgMask = 0
  outlen_reserved : f.ops.outlen &&& ~~~outlenMask = 0

/-- The invariant: the clauses of R50, the widths of S and of the stored registers (R20, R35, R36), and
what an open session and a command in flight guarantee (R31, R155, R200). -/
structure State.Inv (s : State) : Prop where
  /-- S has exactly B bits (R20). -/
  array_width : s.S.toNat < 2 ^ s.width.bits
  /-- CFG's reserved bits read 0 (R35). -/
  cfg_reserved : s.cfg &&& ~~~cfgMask = 0
  /-- OUTLEN's reserved bits read 0 (R36). -/
  outlen_reserved : s.outlen &&& ~~~outlenMask = 0
  /-- No session: every position and session parameter is 0 (R50, R181). -/
  idle : s.phase = .idle →
    s.apos = 0 ∧ s.spos = 0 ∧ s.remain = 0 ∧ s.ract = 0 ∧ s.nract = 0 ∧ s.sfxlenact = 0 ∧ s.sfxact = 0
  /-- A session's parameters are legal (R50, R155). -/
  session : s.phase ≠ .idle →
    1 ≤ s.ract.toNat ∧ s.ract.toNat < s.width.bits ∧ 1 ≤ s.nract.toNat ∧
      s.nract.toNat ≤ s.width.nrmax ∧ s.sfxlenact.toNat ≤ 8
  /-- PHASE = ABSORB (R50). -/
  absorb : s.phase = .absorb → s.apos.toNat < s.ract.toNat ∧ s.spos = 0 ∧ 1 ≤ s.remain.toNat
  /-- PHASE = SQUEEZE (R50). -/
  squeeze : s.phase = .squeeze → s.apos = 0 ∧ s.spos.toNat ≤ s.ract.toNat ∧ 1 ≤ s.remain.toNat
  /-- PHASE = DONE (R50). -/
  done : s.phase = .done → s.apos = 0 ∧ s.spos.toNat ≤ s.ract.toNat ∧ s.remain = 0
  /-- No error recorded means no opcode recorded (R33). -/
  no_error : s.err = .none → s.erropc = 0
  /-- A command in flight was accepted (R200). -/
  flight : ∀ f, s.inflight = some f → FlightOk s f

end Sys2Proof.Machine
end

