-- ==== Sys2Proof/Certificates/Slice0/Obligations.lean ====
section
/-! DEFINITION. The statements for the provers: rules of spec/ as propositions about the model. -/

open Sys2Proof Sys2Proof.Machine

/-! ## Encoding -/

/-- 30_encoding.md R84: a word decodes to a command exactly when it is that command's encoding and the
command is legal, and a word with a nonzero NM1 (K) field decodes only to the commands that use it. -/
def Obligations.OneLegalEncodingPerCommand : Prop :=
  (∀ (v : Word) (i : Instr), decode v = .ok i ↔ i.wellFormed = true ∧ encode i = v) ∧
  (∀ (v : Word) (i : Instr), decode v = .ok i → v.extractLsb' 4 6 ≠ 0 →
    ∃ n, i = .absorb n ∨ i = .squeeze n) ∧
  (∀ (v : Word) (i : Instr), decode v = .ok i → v.extractLsb' 10 5 ≠ 0 →
    ∃ k, i = .xorlane k ∨ i = .loadlane k)

/-- 30_encoding.md R86 and 60_exceptions.md R202: a word is illegal exactly in the five listed cases, and
on a block that can take a command it then records ILLEGAL and v[3:0] and changes nothing else. -/
def Obligations.IllegalWordsExactlyAndTheirRecord : Prop :=
  ∀ v : Word,
    let opc := (v.extractLsb' 0 4).toNat
    let nm1 := (v.extractLsb' 4 6).toNat
    let k := (v.extractLsb' 10 5).toNat
    ((∃ e, decode v = .error e) ↔
      9 ≤ opc ∨ 2 ^ 15 ≤ v.toNat ∨ (nm1 ≠ 0 ∧ opc ≠ 2 ∧ opc ≠ 4) ∨ (k ≠ 0 ∧ opc ≠ 6 ∧ opc ≠ 7) ∨
        ((opc = 6 ∨ opc = 7) ∧ 25 ≤ k)) ∧
    ((∃ e, decode v = .error e) → ∀ s : State, s.Ready →
      issueWord v s = .next { s with err := .illegal, erropc := v.extractLsb' 0 4 })

/-- Words written out from the encoding table of 30_encoding.md R85 and R90's worked examples decode to
the commands they stand for. -/
def Obligations.WordsFromTheTableDecode : Prop :=
  decode 0x0 = .ok .nop ∧ decode 0x1 = .ok .init ∧ decode 0x72 = .ok (.absorb 8) ∧
  decode 0x3 = .ok .final ∧ decode 0x3F4 = .ok (.squeeze 64) ∧ decode 0x5 = .ok .permute ∧
  decode 0x6006 = .ok (.xorlane 24) ∧ decode 0x407 = .ok (.loadlane 1) ∧ decode 0x8 = .ok .clear ∧
  decode 0x13 = .error .unusedNm1

/-! ## The step -/

/-- A step whose next transaction writes a legal word to CMD runs that command: `exec` of it, with the
transaction taken from the queue; while a command is in flight the access also counts towards its
completion. How the host's transactions reach the block and how an access counts are the model's choice
(log 1, log 2). -/
def Obligations.StepRunsTheDecodedCommand : Prop :=
  ∀ (s : State) (v : Word) (i : Instr) (rest : List HostEvent),
    s.queue = .write (s.windowBase + 0x020) 8 v :: rest → decode v = .ok i →
    (s.inflight = none → step s = exec i { s with queue := rest }) ∧
    (∀ f n, s.inflight = some f → f.left = n + 1 →
      step s = exec i { s with queue := rest, inflight := some { f with left := n } })

/-- The step after `withFetchWord` runs the command the word decodes to. The queue and the schedule are
the model's choice (log 1, log 2). -/
def Obligations.FetchWordIsRunNext : Prop :=
  ∀ (s : State) (nbits w : Nat) (i : Instr),
    s.inflight = none → decodeTableWord nbits w = some i →
    step (s.withFetchWord nbits w) = exec i { s with latency := 0 :: s.latency }

/-! ## The commands complete -/

/-- 42_control.md R180: an accepted NOP completes and leaves every register as it was. LAT = 0 is the
choice of the model's schedule, which moves on (log 2). -/
def Obligations.NopCompletesAndChangesNothing : Prop :=
  ∀ s : State, s.Ready → s.AtOnce → exec .nop s = .next { s with latency := s.latency.tail }

/-- 41_sponge.md R145 and R155: INIT in a facade mode opens the session of that mode's row. The list gives
mode, rate, suffix length, suffix word, and the fixed digest length (0 where OUTLEN.D gives d). LAT = 0 is
the choice of the model's schedule, which moves on (log 2). -/
def Obligations.InitOpensFacadeSession : Prop :=
  ∀ (s : State) (mode r len sfx dfix : Nat) (d : BitVec 32),
    s.Ready → s.AtOnce → s.width = .b1600 →
    (mode, r, len, sfx, dfix) ∈
      [(0, 1152, 2, 0x02, 224), (1, 1088, 2, 0x02, 256), (2, 832, 2, 0x02, 384),
        (3, 576, 2, 0x02, 512), (4, 1344, 4, 0x0F, 0), (5, 1088, 4, 0x0F, 0)] →
    (s.cfg.extractLsb' 0 3).toNat = mode →
    d = (if dfix = 0 then s.outlen.extractLsb' 0 32 else BitVec.ofNat 32 dfix) → d ≠ 0 →
    exec .init s =
      .next
        { s with
          S := 0, ract := BitVec.ofNat 11 r, nract := 24, sfxlenact := BitVec.ofNat 4 len,
          sfxact := BitVec.ofNat 8 sfx, apos := 0, spos := 0, remain := d, dout := 0,
          phase := .absorb, latency := s.latency.tail }

/-- 41_sponge.md R155: INIT in RAW mode with legal fields opens the session CFG and OUTLEN describe. LAT =
0 is the choice of the model's schedule, which moves on (log 2). -/
def Obligations.InitOpensRawSession : Prop :=
  ∀ s : State, s.Ready → s.AtOnce → s.cfg.extractLsb' 0 3 = 6 →
    1 ≤ (s.cfg.extractLsb' 16 11).toNat → (s.cfg.extractLsb' 16 11).toNat < s.width.bits →
    1 ≤ (s.cfg.extractLsb' 4 5).toNat → (s.cfg.extractLsb' 4 5).toNat ≤ s.width.nrmax →
    (s.cfg.extractLsb' 28 4).toNat ≤ 8 → s.outlen.extractLsb' 0 32 ≠ 0 →
    exec .init s =
      .next
        { s with
          S := 0, ract := s.cfg.extractLsb' 16 11, nract := s.cfg.extractLsb' 4 5,
          sfxlenact := s.cfg.extractLsb' 28 4, sfxact := s.cfg.extractLsb' 32 8, apos := 0, spos := 0,
          remain := s.outlen.extractLsb' 0 32, dout := 0, phase := .absorb,
          latency := s.latency.tail }

/-- 41_sponge.md R156: an accepted ABSORB n absorbs DIN[0], …, DIN[n−1] in that order; only S and APOS
change. LAT = 0 is the choice of the model's schedule, which moves on (log 2). -/
def Obligations.AbsorbCompletes : Prop :=
  ∀ (s : State) (n : Nat), s.Ready → s.AtOnce → s.phase = .absorb →
    let a := ((List.range n).map fun i => s.din.getLsbD i).foldl (absorbBit s.width s.ract s.nract)
      ⟨s.S, s.apos⟩
    exec (.absorb n) s = .next { s with S := a.S, apos := a.apos, latency := s.latency.tail }

/-- 41_sponge.md R157, R150 and R142: an accepted FINAL absorbs the suffix and then the padding string 1
0^j 1 with j = (−m − 2) mod r, where m ≡ APOS + SFXLENACT; APOS is then 0, SPOS 0 and PHASE SQUEEZE, and
nothing else changes. LAT = 0 is the choice of the model's schedule, which moves on (log 2). -/
def Obligations.FinalCompletesWithThePadding : Prop :=
  ∀ s : State, s.Inv → s.Ready → s.AtOnce → s.phase = .absorb →
    let suffix := (List.range s.sfxlenact.toNat).map fun i => s.sfxact.getLsbD i
    let a := (suffix ++ pad s.ract.toNat (s.apos.toNat + suffix.length)).foldl
      (absorbBit s.width s.ract s.nract) ⟨s.S, s.apos⟩
    a.apos = 0 ∧
    exec .final s =
      .next
        { s with S := a.S, apos := 0, spos := 0, phase := .squeeze, latency := s.latency.tail }

/-- 41_sponge.md R158: an accepted SQUEEZE n reads n output bits into DOUT, bit i the i-th bit read and
the bits above n zero; REMAIN falls by n and PHASE becomes DONE when it reaches 0; only S, SPOS, DOUT,
REMAIN and PHASE change. LAT = 0 is the choice of the model's schedule, which moves on (log 2). -/
def Obligations.SqueezeCompletes : Prop :=
  ∀ (s : State) (n : Nat), s.Ready → s.AtOnce → s.phase = .squeeze → n ≤ 64 → n ≤ s.remain.toNat →
    let q := squeezeBits s.width s.ract s.nract n ⟨s.S, s.spos⟩
    ∃ t, exec (.squeeze n) s = .next t ∧
      t = { s with
        S := q.2.S, spos := q.2.spos, dout := t.dout, remain := t.remain, phase := t.phase,
        latency := s.latency.tail } ∧
      (∀ i, t.dout.getLsbD i = q.1.getD i false) ∧
      t.remain.toNat = s.remain.toNat - n ∧
      t.phase = (if n = s.remain.toNat then .done else .squeeze)

/-- 40_keccak_p.md R120: an accepted PERMUTE applies KeccakP(B, CFG.NR) to S; nothing else changes. LAT =
0 is the choice of the model's schedule, which moves on (log 2). -/
def Obligations.PermuteCompletes : Prop :=
  ∀ s : State, s.Ready → s.AtOnce → s.phase = .idle →
    1 ≤ (s.cfg.extractLsb' 4 5).toNat → (s.cfg.extractLsb' 4 5).toNat ≤ s.width.nrmax →
    exec .permute s =
      .next
        { s with
          S := keccakP s.width (s.cfg.extractLsb' 4 5).toNat s.S, latency := s.latency.tail }

/-- 40_keccak_p.md R121: an accepted XORLANE k flips bit W·k + z of S exactly where DIN[z] = 1, z < W;
nothing else changes. LAT = 0 is the choice of the model's schedule, which moves on (log 2). -/
def Obligations.XorlaneFlipsOneLane : Prop :=
  ∀ (s : State) (k : Nat), k < 25 → s.Ready → s.AtOnce → s.phase = .idle →
    ∃ t, exec (.xorlane k) s = .next t ∧ t = { s with S := t.S, latency := s.latency.tail } ∧
      ∀ j, t.S.getLsbD j =
        (s.S.getLsbD j ^^
          (decide (s.width.laneBits * k ≤ j) && decide (j < s.width.laneBits * k + s.width.laneBits) &&
            s.din.getLsbD (j - s.width.laneBits * k)))

/-- 40_keccak_p.md R122: an accepted LOADLANE k makes bit W·k + z of S equal to DIN[z], z < W; every other
bit of S, and everything else, is unchanged. LAT = 0 is the choice of the model's schedule, which moves on
(log 2). -/
def Obligations.LoadlaneOverwritesOneLane : Prop :=
  ∀ (s : State) (k : Nat), k < 25 → s.Ready → s.AtOnce → s.phase = .idle →
    ∃ t, exec (.loadlane k) s = .next t ∧ t = { s with S := t.S, latency := s.latency.tail } ∧
      ∀ j, t.S.getLsbD j =
        if s.width.laneBits * k ≤ j ∧ j < s.width.laneBits * k + s.width.laneBits then
          s.din.getLsbD (j - s.width.laneBits * k)
        else s.S.getLsbD j

/-- 42_control.md R181: CLEAR completes in every phase and with any error recorded; it ends the session,
zeroes S, DOUT, ERR and ERROPC, and keeps CFG, OUTLEN and DIN. LAT = 0 is the choice of the model's
schedule, which moves on (log 2). -/
def Obligations.ClearCompletesInEveryPhase : Prop :=
  ∀ s : State, s.inflight = none → s.AtOnce →
    exec .clear s =
      .next
        { s with
          S := 0, phase := .idle, apos := 0, spos := 0, remain := 0, ract := 0, nract := 0,
          sfxlenact := 0, sfxact := 0, dout := 0, err := .none, erropc := 0,
          latency := s.latency.tail }

/-! ## Errors -/

/-- 60_exceptions.md R207: a CMD write while BUSY = 1, whatever the word, is not issued; it records BUSY
and v[3:0] if ERR = 0 and otherwise changes nothing, so the command in flight is as it was. -/
def Obligations.BusyWriteIsDropped : Prop :=
  ∀ (s : State) (v : Word), s.inflight ≠ none →
    (s.err = .none → issueWord v s = .next { s with err := .busy, erropc := v.extractLsb' 0 4 }) ∧
    (s.err ≠ .none → issueWord v s = .next s)

/-- 60_exceptions.md R208: while ERR ≠ 0 and BUSY = 0, a CMD write of any word but 0x8 changes nothing. -/
def Obligations.StickyErrorIgnoresAllButClear : Prop :=
  ∀ (s : State) (v : Word), s.inflight = none → s.err ≠ .none → v ≠ 0x0000000000000008 →
    issueWord v s = .next s

/-- 60_exceptions.md R203: a legal command in a phase its row does not list is rejected with PHASE, and in
a phase its row lists it never is. -/
def Obligations.PhaseTableDecidesPhaseError : Prop :=
  ∀ (s : State) (i : Instr), s.Ready →
    (s.phase ∉ legalPhases i → exec i s = .next { s with err := .phase, erropc := i.opcode }) ∧
    (s.phase ∈ legalPhases i → ∀ t, exec i s = .next t → t.err ≠ .phase)

/-- 60_exceptions.md R204: INIT is rejected with CONFIG exactly in the listed configurations, and PERMUTE
(in IDLE) exactly when CFG.NR = 0 or CFG.NR > NRMAX; fields they do not read do not matter. -/
def Obligations.ConfigErrorExactly : Prop :=
  ∀ s : State, s.Ready →
    (exec .init s = .next { s with err := .config, erropc := 1 } ↔ InitConfigIllegal s) ∧
    (s.phase = .idle →
      (exec .permute s = .next { s with err := .config, erropc := 5 } ↔
        (s.cfg.extractLsb' 4 5).toNat = 0 ∨ s.width.nrmax < (s.cfg.extractLsb' 4 5).toNat))

/-- 60_exceptions.md R205: INIT is rejected with OUTLEN exactly when the configuration is legal (CONFIG is
checked first), MODE is 4, 5 or 6, and OUTLEN.D = 0. -/
def Obligations.OutlenErrorExactly : Prop :=
  ∀ s : State, s.Ready →
    (exec .init s = .next { s with err := .outlen, erropc := 1 } ↔
      ¬InitConfigIllegal s ∧ 4 ≤ (s.cfg.extractLsb' 0 3).toNat ∧ (s.cfg.extractLsb' 0 3).toNat ≤ 6 ∧
        s.outlen.extractLsb' 0 32 = 0)

/-- 60_exceptions.md R206: SQUEEZE n in SQUEEZE is rejected with OVERRUN exactly when n > REMAIN; taking
REMAIN to 0 makes PHASE DONE, where a SQUEEZE gets PHASE. The clause that reaches DONE takes LAT = 0 from
the model's schedule (log 2). -/
def Obligations.OverrunErrorExactly : Prop :=
  ∀ (s : State) (n : Nat), s.Ready →
    (s.phase = .squeeze →
      (exec (.squeeze n) s = .next { s with err := .overrun, erropc := 4 } ↔ s.remain.toNat < n)) ∧
    (s.phase = .squeeze → s.AtOnce → n = s.remain.toNat →
      ∃ t, exec (.squeeze n) s = .next t ∧ t.phase = .done ∧ t.remain = 0) ∧
    (s.phase = .done → exec (.squeeze n) s = .next { s with err := .phase, erropc := 4 })

/-- 60_exceptions.md R200, with the order of R209: what decides the outcome of a CMD write, and what each
outcome changes. With an error recorded, a write while BUSY = 1 and any word but 0x8 are ignored and
nothing changes. With none recorded, the first check that applies rejects the write and only ERR and
ERROPC change. A legal command that no check stops is accepted, and it goes into flight or completes
with its effect. The conditions of the three cases exclude each other. The schedule of latencies is the
model's choice (log 2), and so is that every command captures DIN, CFG and OUTLEN (log 10). -/
def Obligations.CmdWriteIsAcceptedRejectedOrIgnored : Prop :=
  ∀ (s : State) (v : Word),
    (s.err ≠ .none ∧ (s.inflight ≠ none ∨ v ≠ 0x0000000000000008) ∧ issueWord v s = .next s) ∨
    (s.err = .none ∧ ∃ e,
      ((s.inflight ≠ none ∧ e = .busy) ∨
       (s.inflight = none ∧ (∃ x, decode v = .error x) ∧ e = .illegal) ∨
       (s.inflight = none ∧ e ≠ .none ∧
        ∃ i, decode v = .ok i ∧ commandError i ⟨s.din, s.cfg, s.outlen⟩ s = e)) ∧
      issueWord v s = .next { s with err := e, erropc := v.extractLsb' 0 4 }) ∨
    (s.inflight = none ∧ (s.err = .none ∨ v = 0x0000000000000008) ∧
      ∃ i, decode v = .ok i ∧ commandError i ⟨s.din, s.cfg, s.outlen⟩ s = .none ∧
        ((0 < s.nextLatency ∧
          issueWord v s =
            .next
              { s with
                inflight := some ⟨i, ⟨s.din, s.cfg, s.outlen⟩, s.nextLatency⟩,
                latency := s.latency.tail }) ∨
         (s.nextLatency = 0 ∧
          issueWord v s =
            .next (effectOf i ⟨s.din, s.cfg, s.outlen⟩ { s with latency := s.latency.tail }))))

/-! ## Latency -/

/-- 70_reset_and_hazards.md R233 and R234: with LAT = n + 1 an accepted command sets BUSY and captures the
command, DIN, CFG and OUTLEN, and nothing else changes until it completes. That every command captures all
three registers is the model's choice (R234 lists which command captures which; log 10), and so is the
schedule of latencies (log 2). -/
def Obligations.AcceptedCommandGoesIntoFlight : Prop :=
  ∀ (s : State) (i : Instr) (n : Nat) (later : List Nat),
    s.inflight = none → (s.err = .none ∨ i = .clear) →
    commandError i ⟨s.din, s.cfg, s.outlen⟩ s = .none → s.latency = (n + 1) :: later →
    exec i s =
      .next { s with inflight := some ⟨i, ⟨s.din, s.cfg, s.outlen⟩, n + 1⟩, latency := later }

/-- 70_reset_and_hazards.md R234: host writes to DIN, CFG and OUTLEN after the issue change those
registers and nothing the command in flight does. The schedule of latencies is the model's choice (log 2).
-/
def Obligations.LaterOperandWritesDoNotReachTheCommand : Prop :=
  ∀ (s t : State) (f : InFlight) (din cfg outlen : Word),
    s.inflight = some f → f.left = 0 → step s = .next t →
    step { s with din := din, cfg := cfg, outlen := outlen } =
      .next { t with din := din, cfg := cfg, outlen := outlen }

/-- 70_reset_and_hazards.md R233 and R238: a command in flight completes, with exactly its effect on the
captured operands and BUSY back to 0, when its latency is used up, also with transactions still to come,
or when there is none. So no result depends on LAT: with LAT = n + 1 and n + 1 reads before the rest of
the host's transactions, the state after the completion is, but for what the reads answered, the state
LAT = 0 leaves; and with no transaction left the very next step gives that state, whatever LAT was. The
schedule of latencies is the model's choice (log 2). -/
def Obligations.LatencyDoesNotChangeTheResult : Prop :=
  (∀ (s : State) (f : InFlight), s.inflight = some f → (f.left = 0 ∨ s.queue = []) →
    step s = .next (effectOf f.instr f.ops { s with inflight := none })) ∧
  (∀ (s : State) (i : Instr) (n : Nat) (later : List Nat) (reads : List (Nat × Nat))
    (rest : List HostEvent),
    s.inflight = none → (s.err = .none ∨ i = .clear) →
    commandError i ⟨s.din, s.cfg, s.outlen⟩ s = .none → reads.length = n + 1 →
    (∀ r ∈ reads, s.windowBase ≤ r.1 ∧ r.1 < s.windowBase + 0x200) →
    ∃ u t v,
      exec i
        { s with
          latency := (n + 1) :: later,
          queue := (reads.map fun r => HostEvent.read r.1 r.2) ++ rest } = .next u ∧
      Host.Core.run Sys2Proof.core (n + 2) u = .next t ∧
      exec i { s with latency := 0 :: later, queue := rest } = .next v ∧
      t = { v with reply := t.reply, freeIx := t.freeIx }) ∧
  (∀ (s u : State) (i : Instr) (n : Nat) (later : List Nat),
    s.inflight = none → (s.err = .none ∨ i = .clear) →
    commandError i ⟨s.din, s.cfg, s.outlen⟩ s = .none → s.queue = [] →
    exec i { s with latency := (n + 1) :: later } = .next u →
    step u = exec i { s with latency := 0 :: later })

/-- 70_reset_and_hazards.md R233: an accepted command completes after a finite number of later host
accesses: if the host's transactions stay in the window, BUSY is 0 after at most LAT + 1 steps. The
schedule of latencies is the model's choice (log 2). -/
def Obligations.BusyEndsWithinLatency : Prop :=
  ∀ (s : State) (f : InFlight), s.inflight = some f →
    (∀ e ∈ s.queue, ∀ addr size,
      (e = .read addr size ∨ ∃ v, e = .write addr size v) →
        s.windowBase ≤ addr ∧ addr < s.windowBase + 0x200) →
    ∃ k t, k ≤ f.left + 1 ∧ Host.Core.run Sys2Proof.core k s = .next t ∧ t.busy = false

/-! ## Registers -/

/-- 10_state.md R39: STATUS's fields, at their places, in every state and also while BUSY = 1; a write to
STATUS is ignored. -/
def Obligations.StatusReadsItsFields : Prop :=
  (∀ s : State,
    hostRead (s.windowBase + 0x028) 8 s = .next { s with reply := some s.statusWord } ∧
    s.statusWord.getLsbD 0 = s.inflight.isSome ∧
    (s.statusWord.extractLsb' 1 2).toNat =
      (match s.phase with | .idle => 0 | .absorb => 1 | .squeeze => 2 | .done => 3) ∧
    s.statusWord.extractLsb' 3 1 = 0 ∧
    (s.statusWord.extractLsb' 4 4).toNat =
      (match s.err with
        | .none => 0 | .illegal => 1 | .phase => 2 | .config => 3 | .outlen => 4 | .overrun => 5
        | .busy => 6) ∧
    s.statusWord.extractLsb' 8 4 = s.erropc ∧ s.statusWord.extractLsb' 12 52 = 0 ∧
    (∀ v, hostWrite (s.windowBase + 0x028) 8 v s = .next s)) ∧
  State.reset.statusWord = 0

/-- 10_state.md R40 and R41: POS's and CUR's fields, at their places, and what a read of each returns
while BUSY = 0; writes to them are ignored. -/
def Obligations.PosAndCurReadTheirFields : Prop :=
  (∀ s : State,
    (s.inflight = none →
      hostRead (s.windowBase + 0x030) 8 s = .next { s with reply := some s.posWord } ∧
      hostRead (s.windowBase + 0x038) 8 s = .next { s with reply := some s.curWord }) ∧
    s.posWord.extractLsb' 0 11 = s.apos ∧ s.posWord.extractLsb' 11 5 = 0 ∧
    s.posWord.extractLsb' 16 11 = s.spos ∧ s.posWord.extractLsb' 27 5 = 0 ∧
    s.posWord.extractLsb' 32 32 = s.remain ∧
    s.curWord.extractLsb' 0 11 = s.ract ∧ s.curWord.extractLsb' 11 5 = 0 ∧
    s.curWord.extractLsb' 16 5 = s.nract ∧ s.curWord.extractLsb' 21 3 = 0 ∧
    s.curWord.extractLsb' 24 4 = s.sfxlenact ∧ s.curWord.extractLsb' 28 4 = 0 ∧
    s.curWord.extractLsb' 32 8 = s.sfxact ∧ s.curWord.extractLsb' 40 24 = 0 ∧
    (∀ v, hostWrite (s.windowBase + 0x030) 8 v s = .next s ∧
      hostWrite (s.windowBase + 0x038) 8 v s = .next s)) ∧
  State.reset.posWord = 0 ∧ State.reset.curWord = 0

/-- 10_state.md R34: PARAM describes the build, in every state and for every width, and cannot be written.
That State.reset has the default width B = 1600 is the model's choice (log 3). -/
def Obligations.ParamDescribesTheBuild : Prop :=
  (∀ s : State,
    hostRead (s.windowBase + 0x000) 8 s = .next { s with reply := some (paramWord s.width) } ∧
    (∀ v, hostWrite (s.windowBase + 0x000) 8 v s = .next s)) ∧
  (∀ w : Width,
    ((paramWord w).extractLsb' 0 11).toNat = w.bits ∧ (paramWord w).extractLsb' 11 5 = 0 ∧
    ((paramWord w).extractLsb' 16 7).toNat = w.bits / 25 ∧ (paramWord w).extractLsb' 23 1 = 0 ∧
    2 ^ ((paramWord w).extractLsb' 24 3).toNat = w.bits / 25 ∧ (paramWord w).extractLsb' 27 5 = 0 ∧
    ((paramWord w).extractLsb' 32 5).toNat = 12 + 2 * ((paramWord w).extractLsb' 24 3).toNat ∧
    (paramWord w).extractLsb' 37 27 = 0) ∧
  paramWord .b1600 = 0x0000001806400640 ∧ State.reset.width = .b1600

/-- 10_state.md R43 and 20_memory.md R64: while BUSY = 0 a read of LANE[k] returns S[x,y,z] at bit z < W,
with k = 5y + x, and 0 above; a write to it is ignored; after reset S is 0. -/
def Obligations.LaneWindowReadsTheState : Prop :=
  (∀ (s : State) (k : Fin 25),
    (s.inflight = none →
      ∃ v : Word, hostRead (s.windowBase + (0x100 + 8 * k.val)) 8 s = .next { s with reply := some v } ∧
        ∀ z, v.getLsbD z =
          (decide (z < s.width.laneBits) && cubeBit s.width s.S (k.val % 5) (k.val / 5) z)) ∧
    (∀ v, hostWrite (s.windowBase + (0x100 + 8 * k.val)) 8 v s = .next s)) ∧
  State.reset.S = 0

/-- 10_state.md R35 to R37, 70_reset_and_hazards.md R236: a write to CFG, OUTLEN or DIN stores its value
at once under the register's store mask, BUSY or not, changes nothing else, and a later read returns what
is stored. -/
def Obligations.OperandRegistersStoreUnderTheirMasks : Prop :=
  ∀ (s : State) (v : Word),
    hostWrite (s.windowBase + 0x008) 8 v s = .next { s with cfg := v &&& 0x000000FFF7FF01F7 } ∧
    hostWrite (s.windowBase + 0x010) 8 v s = .next { s with outlen := v &&& 0x00000000FFFFFFFF } ∧
    hostWrite (s.windowBase + 0x018) 8 v s = .next { s with din := v } ∧
    hostRead (s.windowBase + 0x008) 8 s = .next { s with reply := some s.cfg } ∧
    hostRead (s.windowBase + 0x010) 8 s = .next { s with reply := some s.outlen } ∧
    hostRead (s.windowBase + 0x018) 8 s = .next { s with reply := some s.din }

/-- 10_state.md R42: DOUT reads as it is stored while BUSY = 0 and cannot be written; an accepted INIT or
CLEAR sets it to 0, at the accepting write where LAT = 0 and at its completion otherwise (the schedule of
latencies is the model's choice, log 2); and no command but SQUEEZE writes it otherwise. -/
def Obligations.DoutIsWrittenBySqueezeInitAndClear : Prop :=
  (∀ s : State,
    (s.inflight = none →
      hostRead (s.windowBase + 0x040) 8 s = .next { s with reply := some s.dout }) ∧
    (∀ v, hostWrite (s.windowBase + 0x040) 8 v s = .next s)) ∧
  (∀ (s : State) (i : Instr), i = .init ∨ i = .clear →
    s.inflight = none → (s.err = .none ∨ i = .clear) → s.AtOnce →
    commandError i ⟨s.din, s.cfg, s.outlen⟩ s = .none →
    ∃ t, exec i s = .next t ∧ t.dout = 0) ∧
  (∀ (s : State) (f : InFlight), s.inflight = some f → (f.left = 0 ∨ s.queue = []) →
    f.instr = .init ∨ f.instr = .clear → commandError f.instr f.ops s = .none →
    ∃ t, step s = .next t ∧ t.dout = 0) ∧
  (∀ (s t : State) (i : Instr), exec i s = .next t →
    t.dout = s.dout ∨ (∃ n, i = .squeeze n) ∨ ((i = .init ∨ i = .clear) ∧ t.dout = 0)) ∧
  State.reset.dout = 0

/-- 20_memory.md R62: inside the window, an access that is not 8 bytes wide or not 8-byte aligned is
ignored (write) or returns 0 (read), and never sets ERR. That this holds of an access that starts inside
the window and runs past its end is the model's reading (log 9). -/
def Obligations.UnsupportedAccessIsIgnored : Prop :=
  ∀ (s : State) (off size : Nat), off < 0x200 → (size ≠ 8 ∨ off % 8 ≠ 0) →
    (∀ v, hostWrite (s.windowBase + off) size v s = .next s) ∧
    hostRead (s.windowBase + off) size s = .next { s with reply := some 0 }

/-- 10_state.md R44: every reserved address of the window reads 0, whatever the width of the access and
BUSY or not, and writes to it are ignored; CMD also reads 0 (R38). Widths other than 8 bytes and
misaligned offsets rest on 20_memory.md R62, and an access that runs past the window's end on the model's
reading (log 9). -/
def Obligations.ReservedLocationsReadZero : Prop :=
  ∀ s : State,
    (∀ off size : Nat, (0x048 ≤ off ∧ off < 0x100 ∨ 0x1C8 ≤ off ∧ off < 0x200) →
      hostRead (s.windowBase + off) size s = .next { s with reply := some 0 } ∧
      (∀ v, hostWrite (s.windowBase + off) size v s = .next s)) ∧
    hostRead (s.windowBase + 0x020) 8 s = .next { s with reply := some 0 }

/-- 20_memory.md R69: no read changes anything of the block; a write to CMD issues a command; a write to
CFG, OUTLEN or DIN stores its value under the register's store mask (10_state.md R35 to R37) and does nothing
else; no other write changes anything. Writes of another width rest on 20_memory.md R62, and one that runs
past the window's end on the model's reading (log 9). -/
def Obligations.OnlyCmdWritesHaveSideEffects : Prop :=
  (∀ (s t : State) (addr size : Nat), hostRead addr size s = .next t →
    { t with reply := s.reply, freeIx := s.freeIx } = s) ∧
  (∀ (s : State) (v : Word),
    hostWrite (s.windowBase + 0x020) 8 v s = issueWord v s ∧
    hostWrite (s.windowBase + 0x008) 8 v s = .next { s with cfg := v &&& 0x000000FFF7FF01F7 } ∧
    hostWrite (s.windowBase + 0x010) 8 v s = .next { s with outlen := v &&& 0x00000000FFFFFFFF } ∧
    hostWrite (s.windowBase + 0x018) 8 v s = .next { s with din := v }) ∧
  (∀ (s t : State) (addr size : Nat) (v : Word), hostWrite addr size v s = .next t →
    (size = 8 → ∀ off ∈ [0x008, 0x010, 0x018, 0x020], addr ≠ s.windowBase + off) → t = s)

/-- 70_reset_and_hazards.md R235: while BUSY = 1, LANE, DOUT, POS and CUR return an unspecified value (the
model's free value, log 6), and STATUS, PARAM, CFG, OUTLEN, DIN, CMD and the reserved locations read
exactly. -/
def Obligations.ReadsWhileBusy : Prop :=
  ∀ s : State, s.inflight ≠ none →
    (∀ off, off = 0x030 ∨ off = 0x038 ∨ off = 0x040 ∨
        (off % 8 = 0 ∧ 0x100 ≤ off ∧ off ≤ 0x1C0) →
      hostRead (s.windowBase + off) 8 s =
        .next { s with reply := some (Config.busyRead s.freeIx), freeIx := s.freeIx + 1 }) ∧
    hostRead (s.windowBase + 0x028) 8 s = .next { s with reply := some s.statusWord } ∧
    s.statusWord.getLsbD 0 = true ∧
    hostRead (s.windowBase + 0x000) 8 s = .next { s with reply := some (paramWord s.width) } ∧
    hostRead (s.windowBase + 0x008) 8 s = .next { s with reply := some s.cfg } ∧
    hostRead (s.windowBase + 0x010) 8 s = .next { s with reply := some s.outlen } ∧
    hostRead (s.windowBase + 0x018) 8 s = .next { s with reply := some s.din } ∧
    hostRead (s.windowBase + 0x020) 8 s = .next { s with reply := some 0 } ∧
    (∀ off, off % 8 = 0 → (0x048 ≤ off ∧ off ≤ 0x0F8 ∨ 0x1C8 ≤ off ∧ off ≤ 0x1F8) →
      hostRead (s.windowBase + off) 8 s = .next { s with reply := some 0 })

/-- 30_encoding.md R89 and 10_state.md R35: SETCFG puts each operand in its own CFG field, and the store
mask drops none of it. -/
def Obligations.SetcfgFillsTheCfgFields : Prop :=
  ∀ mode nr rate sfxlen sfx : Nat,
    (AsmLine.setcfg mode nr rate sfxlen sfx).wellFormed = true →
    ∃ v, expand (.setcfg mode nr rate sfxlen sfx) = [.wr .cfg v] ∧ v &&& 0x000000FFF7FF01F7 = v ∧
      (cfgMode v).toNat = mode ∧ (cfgNr v).toNat = nr ∧ (cfgRate v).toNat = rate ∧
      (cfgSfxlen v).toNat = sfxlen ∧ (cfgSfx v).toNat = sfx

/-! ## The permutation -/

/-- 10_state.md R22: the linear, cube and lane views of the state are inverse to each other, for every
width. -/
def Obligations.StateViewsRoundTrip : Prop :=
  ∀ w : Width,
    (∀ S : BitVec 1600, S.toNat < 2 ^ w.bits →
      ofCube w (cubeBit w S) = S ∧ fromLanes (toLanes w.laneBits S) = S) ∧
    (∀ (A : Nat → Nat → Nat → Bool) (x y z : Nat), x < 5 → y < 5 → z < w.laneBits →
      cubeBit w (ofCube w A) x y z = A x y z) ∧
    (∀ a : Lanes w.laneBits, toLanes w.laneBits (fromLanes a) = a)

/-- 40_keccak_p.md R114: each lane-level step is the bit-level step of R103 to R110, for every width. -/
def Obligations.LaneStepsAreTheBitSteps : Prop :=
  ∀ (w : Width) (S : BitVec 1600), S.toNat < 2 ^ w.bits →
    fromLanes (theta (toLanes w.laneBits S)) = thetaCube w S ∧
    fromLanes (rho (toLanes w.laneBits S)) = rhoCube w S ∧
    fromLanes (pi (toLanes w.laneBits S)) = piCube w S ∧
    fromLanes (chi (toLanes w.laneBits S)) = chiCube w S ∧
    ∀ i, fromLanes (iota (roundConstant w.laneBits w.log i) (toLanes w.laneBits S)) = iotaCube w i S

/-- 40_keccak_p.md R100 and R112: the engine's permutation is the bit-level KeccakP(B, nr), the rounds with
indices 12 + 2L − nr to 12 + 2L − 1, for every width and every legal nr. -/
def Obligations.EngineComputesKeccakP : Prop :=
  ∀ (w : Width) (nr : Nat) (S : BitVec 1600), S.toNat < 2 ^ w.bits → 1 ≤ nr → nr ≤ w.nrmax →
    keccakP w nr S =
      (List.range nr).foldl (fun A t => rndCube w (12 + 2 * w.log - nr + t) A) S

/-- 40_keccak_p.md R104 and R115: the walk visits each lane but (0,0) once and gives the offset table. -/
def Obligations.RhoOffsetsAreTheTable : Prop :=
  (((rhoWalk 24 0 1 0).map fun p => p.1).Perm ((List.range 24).map fun k => k + 1)) ∧
  ((List.range 25).map fun k => rhoOffset 64 (k % 5) (k / 5)) =
    [0, 1, 62, 28, 27, 36, 44, 6, 55, 20, 3, 10, 43, 25, 39, 41, 45, 15, 21, 8, 18, 2, 61, 56, 14] ∧
  ((List.range 25).map fun k => rhoOffset 8 (k % 5) (k / 5)) =
    [0, 1, 6, 4, 3, 4, 4, 6, 7, 4, 3, 2, 3, 1, 7, 1, 5, 7, 5, 0, 2, 2, 5, 0, 6]

/-- 40_keccak_p.md R108, R116 and R117: rc has period 255, RC has the listed values for W = 64 (each row
gives two, as R116 prints them), and for W < 64 RC[i] is the W = 64 value modulo 2^W. -/
def Obligations.RoundConstantsAreTheTable : Prop :=
  (∀ t, rcBit (t + 255) = rcBit t) ∧
  (∀ row ∈
    [((0 : Nat), (0x0000000000000001 : Word), (12 : Nat), (0x000000008000808B : Word)),
      (1, 0x0000000000008082, 13, 0x800000000000008B), (2, 0x800000000000808A, 14, 0x8000000000008089),
      (3, 0x8000000080008000, 15, 0x8000000000008003), (4, 0x000000000000808B, 16, 0x8000000000008002),
      (5, 0x0000000080000001, 17, 0x8000000000000080), (6, 0x8000000080008081, 18, 0x000000000000800A),
      (7, 0x8000000000008009, 19, 0x800000008000000A), (8, 0x000000000000008A, 20, 0x8000000080008081),
      (9, 0x0000000000000088, 21, 0x8000000000008080), (10, 0x0000000080008009, 22, 0x0000000080000001),
      (11, 0x000000008000000A, 23, 0x8000000080008008)],
    roundConstant 64 6 row.1 = row.2.1 ∧ roundConstant 64 6 row.2.2.1 = row.2.2.2) ∧
  (∀ (w : Width) (i : Nat),
    (roundConstant w.laneBits w.log i).toNat = (roundConstant 64 6 i).toNat % 2 ^ w.laneBits)

/-! ## The sponge -/

/-- 41_sponge.md R147: AbsorbBit(v) XORs v into S_lin[APOS], advances APOS, and at the end of a block
permutes and returns APOS to 0. -/
def Obligations.AbsorbBitRule : Prop :=
  ∀ (w : Width) (r : BitVec 11) (nr : BitVec 5) (a : Absorber) (v : Bool),
    a.apos.toNat < r.toNat → r.toNat < w.bits →
    ∃ S : BitVec 1600,
      (∀ j, S.getLsbD j = (a.S.getLsbD j ^^ (v && decide (j = a.apos.toNat)))) ∧
      (a.apos.toNat + 1 ≠ r.toNat →
        (absorbBit w r nr a v).S = S ∧ (absorbBit w r nr a v).apos.toNat = a.apos.toNat + 1) ∧
      (a.apos.toNat + 1 = r.toNat →
        (absorbBit w r nr a v).S = keccakP w nr.toNat S ∧ (absorbBit w r nr a v).apos = 0)

/-- 41_sponge.md R148: SqueezeBit permutes first when SPOS = RACT, reads S_lin[SPOS] and advances SPOS. -/
def Obligations.SqueezeBitRule : Prop :=
  ∀ (w : Width) (r : BitVec 11) (nr : BitVec 5) (q : Squeezer),
    q.spos.toNat ≤ r.toNat → 1 ≤ r.toNat → r.toNat < w.bits →
    (q.spos = r →
      (squeezeBit w r nr q).1 = (keccakP w nr.toNat q.S).getLsbD 0 ∧
      (squeezeBit w r nr q).2 = ⟨keccakP w nr.toNat q.S, 1⟩) ∧
    (q.spos ≠ r →
      (squeezeBit w r nr q).1 = q.S.getLsbD q.spos.toNat ∧ (squeezeBit w r nr q).2.S = q.S ∧
      (squeezeBit w r nr q).2.spos.toNat = q.spos.toNat + 1)

/-- 41_sponge.md R142: the padding string is 1, j zeros, 1 with j < r and m + j + 2 a multiple of r, so at
least two bits; the corner cases are as listed. -/
def Obligations.PadIsTenStarOne : Prop :=
  ∀ r m : Nat, 1 ≤ r →
    ∃ j, pad r m = true :: (List.replicate j false ++ [true]) ∧ j < r ∧ (m + j + 2) % r = 0 ∧
      ((j : Int) = (-(m : Int) - 2) % (r : Int)) ∧
      (2 ≤ r → m % r = r - 2 → j = 0) ∧ (m % r = r - 1 → j = r - 1) ∧ (r = 1 → j = 0) ∧
      (m = 0 → 2 ≤ r → j = r - 2)

/-- 41_sponge.md R149: after absorbing any bit string Q from the zero state, APOS is |Q| mod r and S is the
state of R143's loop over the complete blocks with the rest XORed in; the split across commands does not
matter; and when Q is a message with its padding, S is the state R140's absorption loop reaches. -/
def Obligations.AbsorptionEqualsTheBlockLoop : Prop :=
  ∀ (w : Width) (r : BitVec 11) (nr : BitVec 5), 1 ≤ r.toNat → r.toNat < w.bits →
    (∀ Q : List Bool,
      let a := Q.foldl (absorbBit w r nr) ⟨0, 0⟩
      a.apos.toNat = Q.length % r.toNat ∧
      a.S = absorbString w r.toNat nr.toNat Q ^^^
        bitsWord 1600 (Q.drop (Q.length / r.toNat * r.toNat))) ∧
    (∀ (a : Absorber) (P Q : List Bool),
      (P ++ Q).foldl (absorbBit w r nr) a =
        Q.foldl (absorbBit w r nr) (P.foldl (absorbBit w r nr) a)) ∧
    (∀ N : List Bool,
      (N ++ pad r.toNat N.length).foldl (absorbBit w r nr) ⟨0, 0⟩ =
        ⟨absorbString w r.toNat nr.toNat (N ++ pad r.toNat N.length), 0⟩)

/-- 41_sponge.md R151: the bits squeezed from the state S0 are the first bits of the stream
Trunc_r(S0) || Trunc_r(f(S0)) || …, however they are split, and shorter outputs are prefixes of longer
ones. -/
def Obligations.SqueezingReadsTheStream : Prop :=
  ∀ (w : Width) (r : BitVec 11) (nr : BitVec 5) (S0 : BitVec 1600), 1 ≤ r.toNat → r.toNat < w.bits →
    (∀ n, (squeezeBits w r nr n ⟨S0, 0⟩).1 = squeezeString w r.toNat nr.toNat S0 n) ∧
    (∀ (m n : Nat) (q : Squeezer),
      squeezeBits w r nr (m + n) q =
        ((squeezeBits w r nr m q).1 ++ (squeezeBits w r nr n (squeezeBits w r nr m q).2).1,
          (squeezeBits w r nr n (squeezeBits w r nr m q).2).2)) ∧
    (∀ n d, n ≤ d →
      (squeezeString w r.toNat nr.toNat S0 d).take n = squeezeString w r.toNat nr.toNat S0 n)

/-- 41_sponge.md R140, R149 to R152: in a fresh session, however the host splits the message over ABSORB
commands and the output over SQUEEZE commands, the bits it reads are the first bits of Sponge(r, N, d)
with N the message and its suffix, and REMAIN counts them down. The empty schedule, LAT = 0 for every
command, is the model's choice (log 2). -/
def Obligations.SessionComputesTheSponge : Prop :=
  ∀ (s : State) (chunks : List (Word × Nat)) (counts : List Nat),
    s.Inv → s.Ready → s.latency = [] → s.phase = .absorb → s.S = 0 → s.apos = 0 →
    (∀ c ∈ chunks, 1 ≤ c.2 ∧ c.2 ≤ 64) → (∀ n ∈ counts, 1 ≤ n ∧ n ≤ 64) →
    counts.sum ≤ s.remain.toNat →
    ∃ t u v out, absorbChunks chunks s = some t ∧ exec .final t = .next u ∧
      squeezeChunks counts u = some (out, v) ∧
      out = spongeRef s.width s.ract.toNat s.nract.toNat
        (chunkBits chunks ++ wordBits s.sfxact s.sfxlenact.toNat) counts.sum ∧
      v.remain.toNat = s.remain.toNat - counts.sum ∧ v.err = .none

/-- 20_memory.md R67 and 41_sponge.md R161: d output bits make ceil(d/8) bytes, output bit i is bit i mod 8
of byte i div 8 and the bits that no output bit fills are 0; message bit i is bit i mod 8 of message byte
i div 8. The spec takes the input order and the zero fill from general knowledge (log 12). -/
def Obligations.BytesHoldTheirBitsInOrder : Prop :=
  (∀ bits : List Bool,
    (outputBytes bits).length = (bits.length + 7) / 8 ∧
    ∀ i, ((outputBytes bits).getD (i / 8) 0).getLsbD (i % 8) = bits.getD i false) ∧
  (∀ bytes : List (BitVec 8),
    (bytesToBits bytes).length = 8 * bytes.length ∧
    ∀ i, (bytesToBits bytes).getD i false = (bytes.getD (i / 8) 0).getLsbD (i % 8))

/-! ## Invariants and whole-machine rules -/

/-- Reset leaves the invariant, for every width and window base. -/
def Obligations.ResetMeetsTheInvariant : Prop :=
  (∀ (w : Width) (base : Nat), (State.resetAt w base).Inv) ∧ State.reset.Inv

/-- From every state that meets the invariant, whatever the host does next, a step leads to a state that
meets it. -/
def Obligations.EveryStepKeepsTheInvariant : Prop :=
  ∀ s t : State, s.Inv → step s = .next t → t.Inv

/-- 10_state.md R50: for every width, every sequence of host transactions and every latency schedule, each
state reached from reset with BUSY = 0 meets the clauses of R50. -/
def Obligations.ReachableStatesMeetTheClauses : Prop :=
  ∀ (w : Width) (base : Nat) (queue : List HostEvent) (latency : List Nat) (k : Nat) (s : State),
    Host.Core.run Sys2Proof.core k
      { State.resetAt w base with queue := queue, latency := latency } = .next s →
    s.busy = false →
    (s.phase = .idle → s.apos = 0 ∧ s.spos = 0 ∧ s.remain = 0) ∧
    (s.phase = .absorb →
      1 ≤ s.ract.toNat ∧ s.ract.toNat ≤ s.width.bits - 1 ∧ s.apos.toNat < s.ract.toNat ∧ s.spos = 0 ∧
        1 ≤ s.remain.toNat) ∧
    (s.phase = .squeeze → s.apos = 0 ∧ s.spos.toNat ≤ s.ract.toNat ∧ 1 ≤ s.remain.toNat) ∧
    (s.phase = .done → s.remain = 0 ∧ s.apos = 0) ∧
    (s.phase ≠ .idle →
      1 ≤ s.nract.toNat ∧ s.nract.toNat ≤ s.width.nrmax ∧ s.sfxlenact.toNat ≤ 8)

/-- 10_state.md R26: a step that changes S is the completion of a command in flight other than NOP, a CMD
write of a command other than NOP with BUSY = 0 and LAT = 0, or a reset; host register writes and reads
never change S, and while BUSY = 1 no access but a reset does. When a command completes is the model's
choice (log 2). -/
def Obligations.OnlyCommandsAndResetChangeTheStateArray : Prop :=
  ∀ s t : State, step s = .next t → t.S ≠ s.S →
    (∃ f, s.inflight = some f ∧ (f.left = 0 ∨ s.queue = []) ∧ f.instr ≠ .nop ∧ t = complete f s) ∨
    (∃ v i rest, s.inflight = none ∧ s.nextLatency = 0 ∧
      s.queue = .write (s.windowBase + 0x020) 8 v :: rest ∧ decode v = .ok i ∧ i ≠ .nop) ∨
    (∃ rest, s.queue = .reset :: rest)

/-- 60_exceptions.md R212 and R213: once an error is recorded, a step leaves ERR and ERROPC as they are, or
it is a CLEAR or a reset, which sets both to 0, zeroes S and ends any session. -/
def Obligations.FirstErrorStaysUntilClearOrReset : Prop :=
  ∀ s t : State, step s = .next t → s.err ≠ .none →
    (t.err = s.err ∧ t.erropc = s.erropc) ∨
    (t.err = .none ∧ t.erropc = 0 ∧ t.S = 0 ∧ t.phase = .idle ∧
      ((∃ f, s.inflight = some f ∧ f.instr = .clear) ∨
        (∃ rest, s.queue = .write (s.windowBase + 0x020) 8 0x8 :: rest) ∨
        (∃ rest, s.queue = .reset :: rest)))

/-- 10_state.md R27: the moves of PHASE: INIT to ABSORB, FINAL to SQUEEZE, SQUEEZE to DONE when REMAIN
reaches 0, CLEAR to IDLE, and no other command changes it. -/
def Obligations.OnlyTheListedCommandsMovePhase : Prop :=
  ∀ (s t : State) (i : Instr), exec i s = .next t → t.phase ≠ s.phase →
    (i = .init ∧ t.phase = .absorb) ∨ (i = .final ∧ s.phase = .absorb ∧ t.phase = .squeeze) ∨
    (∃ n, i = .squeeze n ∧ s.phase = .squeeze ∧ t.phase = .done ∧ t.remain = 0) ∨
    (i = .clear ∧ t.phase = .idle)

/-- 10_state.md R31: the session parameters are constant under every command but INIT and CLEAR, and CLEAR
sets all four to 0. -/
def Obligations.SessionParametersAreLatched : Prop :=
  ∀ (s t : State) (i : Instr), exec i s = .next t →
    (t.ract = s.ract ∧ t.nract = s.nract ∧ t.sfxlenact = s.sfxlenact ∧ t.sfxact = s.sfxact) ∨
    i = .init ∨
    (i = .clear ∧ t.ract = 0 ∧ t.nract = 0 ∧ t.sfxlenact = 0 ∧ t.sfxact = 0)

/-- 00_scope.md R5: the width (and the platform's window base) is constant: no step changes it. -/
def Obligations.BuildParametersAreConstant : Prop :=
  ∀ s t : State, step s = .next t → t.width = s.width ∧ t.windowBase = s.windowBase

/-- 70_reset_and_hazards.md R231: a reset, also one that finds a command in flight, abandons the command and
leaves every piece of the block's state at the value of R230's table. The build, the platform and the
host's own record stay (log 1), and a command whose latency is used up completes before the reset
(log 2). -/
def Obligations.ResetSetsTheTable : Prop :=
  ∀ (s : State) (rest : List HostEvent), s.queue = .reset :: rest →
    (∀ f, s.inflight = some f → f.left ≠ 0) →
    ∃ t, step s = .next t ∧ t.S = 0 ∧ t.phase = .idle ∧ t.apos = 0 ∧ t.spos = 0 ∧ t.remain = 0 ∧
      t.ract = 0 ∧ t.nract = 0 ∧ t.sfxlenact = 0 ∧ t.sfxact = 0 ∧ t.inflight = none ∧ t.err = .none ∧
      t.erropc = 0 ∧ (t.cfg.extractLsb' 4 5).toNat = t.width.nrmax ∧ t.cfg &&& ~~~(0x1F0 : Word) = 0 ∧
      t.outlen = 0 ∧ t.din = 0 ∧ t.dout = 0 ∧ t.statusWord = 0 ∧ t.posWord = 0 ∧ t.curWord = 0 ∧
      (t.width = .b1600 → t.cfg = 0x0000000000000180 ∧ paramWord t.width = 0x0000001806400640) ∧
      t.width = s.width ∧ t.windowBase = s.windowBase ∧ t.queue = rest

/-- 60_exceptions.md R219: with no command in flight and nothing asked of it, the block holds all its
state. -/
def Obligations.IdleBlockHoldsItsState : Prop :=
  ∀ s : State, s.inflight = none → s.queue = [] → step s = .next s
end

