-- ==== Sys2Proof/Laws/Keccak.lean ====
section
/-! SUPPORT. The widths: the permutation's result has exactly B bits (spec 10_state.md R20). -/

namespace Sys2Proof.Machine

theorem laneBits_le (w : Width) : w.laneBits ≤ 64 := by cases w <;> decide

theorem laneBits_pos (w : Width) : 1 ≤ w.laneBits := by cases w <;> decide

theorem laneBits_eq (w : Width) : w.laneBits = 2 ^ w.log := by cases w <;> rfl

theorem bits_le (w : Width) : w.bits ≤ 1600 := by cases w <;> decide

theorem nrmax_le (w : Width) : w.nrmax ≤ 24 := by cases w <;> decide

/-- A lane placed in the state array occupies bits W·k to W·k + W − 1 (R23). -/
theorem getLsbD_placeLane {W : Nat} (v : BitVec W) (k j : Nat) :
    (placeLane v k).getLsbD j =
      (decide (j < 1600) && decide (W * k ≤ j) && v.getLsbD (j - W * k)) := by
  simp only [placeLane, BitVec.getLsbD_shiftLeft, BitVec.getLsbD_setWidth]
  by_cases h1 : j < 1600 <;> by_cases h2 : j < W * k
  · simp [h1, h2]
  · have : j - W * k < 1600 := by omega
    simp [h1, h2, this]; omega
  · simp [h1]
  · simp [h1]

/-- A lane read from the state array holds bits W·k to W·k + W − 1 (R23). -/
theorem getLsbD_stateLane (W : Nat) (S : BitVec 1600) (k z : Nat) :
    (stateLane W S k).getLsbD z = (decide (z < W) && S.getLsbD (W * k + z)) := by
  simp [stateLane, BitVec.getLsbD_extractLsb']

theorem placeLane_lt {W : Nat} (v : BitVec W) {k : Nat} (hk : k < 25) :
    (placeLane v k).toNat < 2 ^ (25 * W) := by
  have h1 : (placeLane v k).toNat ≤ v.toNat * 2 ^ (W * k) := by
    simp only [placeLane, BitVec.toNat_shiftLeft, BitVec.toNat_setWidth, Nat.shiftLeft_eq]
    exact (Nat.mod_le _ _).trans (Nat.mul_le_mul_right _ (Nat.mod_le _ _))
  have h2 : v.toNat * 2 ^ (W * k) < 2 ^ W * 2 ^ (W * k) :=
    Nat.mul_lt_mul_of_pos_right v.isLt (by positivity)
  have h3 : 2 ^ W * 2 ^ (W * k) ≤ 2 ^ (25 * W) := by
    rw [← Nat.pow_add]
    refine Nat.pow_le_pow_right (by norm_num) ?_
    nlinarith
  omega

/-- The array made of 25 lanes of W bits has no bit at or above 25 W. -/
theorem fromLanes_lt {W : Nat} (a : Lanes W) : (fromLanes a).toNat < 2 ^ (25 * W) := by
  have key : ∀ (l : List Nat) (S : BitVec 1600), (∀ k ∈ l, k < 25) → S.toNat < 2 ^ (25 * W) →
      (l.foldl (fun S k => S ||| placeLane (a.lane (k % 5) (k / 5)) k) S).toNat < 2 ^ (25 * W) := by
    intro l
    induction l with
    | nil => intro S _ h; exact h
    | cons k l ih =>
      intro S hl h
      refine ih _ (fun x hx => hl x (List.mem_cons_of_mem _ hx)) ?_
      rw [BitVec.toNat_or]
      exact Nat.or_lt_two_pow h (placeLane_lt _ (hl k List.mem_cons_self))
  refine key _ _ (fun k hk => by simpa using hk) ?_
  simp only [BitVec.ofNat_eq_ofNat, BitVec.toNat_ofNat, Nat.zero_mod]
  exact Nat.two_pow_pos _

/-- KeccakP(B, nr) answers B bits (R20, R100). -/
theorem keccakP_lt (w : Width) (nr : Nat) (S : BitVec 1600) :
    (keccakP w nr S).toNat < 2 ^ w.bits := fromLanes_lt _

end Sys2Proof.Machine
end

