-- ==== Sys2Proof/Laws/State.lean ====
section
/-! SUPPORT. One lemma for each field of State and each named update: what the update leaves there. -/

namespace Sys2Proof.Machine

/-! ## `reject` -/

@[simp] theorem reject_width (s : State) (e : ErrCode) (opc : BitVec 4) :
    (s.reject e opc).width = s.width := by unfold State.reject; split <;> rfl
@[simp] theorem reject_windowBase (s : State) (e : ErrCode) (opc : BitVec 4) :
    (s.reject e opc).windowBase = s.windowBase := by unfold State.reject; split <;> rfl
@[simp] theorem reject_S (s : State) (e : ErrCode) (opc : BitVec 4) :
    (s.reject e opc).S = s.S := by unfold State.reject; split <;> rfl
@[simp] theorem reject_phase (s : State) (e : ErrCode) (opc : BitVec 4) :
    (s.reject e opc).phase = s.phase := by unfold State.reject; split <;> rfl
@[simp] theorem reject_apos (s : State) (e : ErrCode) (opc : BitVec 4) :
    (s.reject e opc).apos = s.apos := by unfold State.reject; split <;> rfl
@[simp] theorem reject_spos (s : State) (e : ErrCode) (opc : BitVec 4) :
    (s.reject e opc).spos = s.spos := by unfold State.reject; split <;> rfl
@[simp] theorem reject_remain (s : State) (e : ErrCode) (opc : BitVec 4) :
    (s.reject e opc).remain = s.remain := by unfold State.reject; split <;> rfl
@[simp] theorem reject_ract (s : State) (e : ErrCode) (opc : BitVec 4) :
    (s.reject e opc).ract = s.ract := by unfold State.reject; split <;> rfl
@[simp] theorem reject_nract (s : State) (e : ErrCode) (opc : BitVec 4) :
    (s.reject e opc).nract = s.nract := by unfold State.reject; split <;> rfl
@[simp] theorem reject_sfxlenact (s : State) (e : ErrCode) (opc : BitVec 4) :
    (s.reject e opc).sfxlenact = s.sfxlenact := by unfold State.reject; split <;> rfl
@[simp] theorem reject_sfxact (s : State) (e : ErrCode) (opc : BitVec 4) :
    (s.reject e opc).sfxact = s.sfxact := by unfold State.reject; split <;> rfl
@[simp] theorem reject_cfg (s : State) (e : ErrCode) (opc : BitVec 4) :
    (s.reject e opc).cfg = s.cfg := by unfold State.reject; split <;> rfl
@[simp] theorem reject_outlen (s : State) (e : ErrCode) (opc : BitVec 4) :
    (s.reject e opc).outlen = s.outlen := by unfold State.reject; split <;> rfl
@[simp] theorem reject_din (s : State) (e : ErrCode) (opc : BitVec 4) :
    (s.reject e opc).din = s.din := by unfold State.reject; split <;> rfl
@[simp] theorem reject_dout (s : State) (e : ErrCode) (opc : BitVec 4) :
    (s.reject e opc).dout = s.dout := by unfold State.reject; split <;> rfl
@[simp] theorem reject_inflight (s : State) (e : ErrCode) (opc : BitVec 4) :
    (s.reject e opc).inflight = s.inflight := by unfold State.reject; split <;> rfl
@[simp] theorem reject_queue (s : State) (e : ErrCode) (opc : BitVec 4) :
    (s.reject e opc).queue = s.queue := by unfold State.reject; split <;> rfl
@[simp] theorem reject_latency (s : State) (e : ErrCode) (opc : BitVec 4) :
    (s.reject e opc).latency = s.latency := by unfold State.reject; split <;> rfl
@[simp] theorem reject_reply (s : State) (e : ErrCode) (opc : BitVec 4) :
    (s.reject e opc).reply = s.reply := by unfold State.reject; split <;> rfl
@[simp] theorem reject_freeIx (s : State) (e : ErrCode) (opc : BitVec 4) :
    (s.reject e opc).freeIx = s.freeIx := by unfold State.reject; split <;> rfl

/-! ## `clearError` -/

@[simp] theorem clearError_width (s : State) :
    (s.clearError).width = s.width := rfl
@[simp] theorem clearError_windowBase (s : State) :
    (s.clearError).windowBase = s.windowBase := rfl
@[simp] theorem clearError_S (s : State) :
    (s.clearError).S = s.S := rfl
@[simp] theorem clearError_phase (s : State) :
    (s.clearError).phase = s.phase := rfl
@[simp] theorem clearError_apos (s : State) :
    (s.clearError).apos = s.apos := rfl
@[simp] theorem clearError_spos (s : State) :
    (s.clearError).spos = s.spos := rfl
@[simp] theorem clearError_remain (s : State) :
    (s.clearError).remain = s.remain := rfl
@[simp] theorem clearError_ract (s : State) :
    (s.clearError).ract = s.ract := rfl
@[simp] theorem clearError_nract (s : State) :
    (s.clearError).nract = s.nract := rfl
@[simp] theorem clearError_sfxlenact (s : State) :
    (s.clearError).sfxlenact = s.sfxlenact := rfl
@[simp] theorem clearError_sfxact (s : State) :
    (s.clearError).sfxact = s.sfxact := rfl
@[simp] theorem clearError_err (s : State) :
    (s.clearError).err = .none := rfl
@[simp] theorem clearError_erropc (s : State) :
    (s.clearError).erropc = 0 := rfl
@[simp] theorem clearError_cfg (s : State) :
    (s.clearError).cfg = s.cfg := rfl
@[simp] theorem clearError_outlen (s : State) :
    (s.clearError).outlen = s.outlen := rfl
@[simp] theorem clearError_din (s : State) :
    (s.clearError).din = s.din := rfl
@[simp] theorem clearError_dout (s : State) :
    (s.clearError).dout = s.dout := rfl
@[simp] theorem clearError_inflight (s : State) :
    (s.clearError).inflight = s.inflight := rfl
@[simp] theorem clearError_queue (s : State) :
    (s.clearError).queue = s.queue := rfl
@[simp] theorem clearError_latency (s : State) :
    (s.clearError).latency = s.latency := rfl
@[simp] theorem clearError_reply (s : State) :
    (s.clearError).reply = s.reply := rfl
@[simp] theorem clearError_freeIx (s : State) :
    (s.clearError).freeIx = s.freeIx := rfl

/-! ## `popLatency` -/

@[simp] theorem popLatency_width (s : State) :
    (s.popLatency).width = s.width := rfl
@[simp] theorem popLatency_windowBase (s : State) :
    (s.popLatency).windowBase = s.windowBase := rfl
@[simp] theorem popLatency_S (s : State) :
    (s.popLatency).S = s.S := rfl
@[simp] theorem popLatency_phase (s : State) :
    (s.popLatency).phase = s.phase := rfl
@[simp] theorem popLatency_apos (s : State) :
    (s.popLatency).apos = s.apos := rfl
@[simp] theorem popLatency_spos (s : State) :
    (s.popLatency).spos = s.spos := rfl
@[simp] theorem popLatency_remain (s : State) :
    (s.popLatency).remain = s.remain := rfl
@[simp] theorem popLatency_ract (s : State) :
    (s.popLatency).ract = s.ract := rfl
@[simp] theorem popLatency_nract (s : State) :
    (s.popLatency).nract = s.nract := rfl
@[simp] theorem popLatency_sfxlenact (s : State) :
    (s.popLatency).sfxlenact = s.sfxlenact := rfl
@[simp] theorem popLatency_sfxact (s : State) :
    (s.popLatency).sfxact = s.sfxact := rfl
@[simp] theorem popLatency_err (s : State) :
    (s.popLatency).err = s.err := rfl
@[simp] theorem popLatency_erropc (s : State) :
    (s.popLatency).erropc = s.erropc := rfl
@[simp] theorem popLatency_cfg (s : State) :
    (s.popLatency).cfg = s.cfg := rfl
@[simp] theorem popLatency_outlen (s : State) :
    (s.popLatency).outlen = s.outlen := rfl
@[simp] theorem popLatency_din (s : State) :
    (s.popLatency).din = s.din := rfl
@[simp] theorem popLatency_dout (s : State) :
    (s.popLatency).dout = s.dout := rfl
@[simp] theorem popLatency_inflight (s : State) :
    (s.popLatency).inflight = s.inflight := rfl
@[simp] theorem popLatency_queue (s : State) :
    (s.popLatency).queue = s.queue := rfl
@[simp] theorem popLatency_latency (s : State) :
    (s.popLatency).latency = s.latency.tail := rfl
@[simp] theorem popLatency_reply (s : State) :
    (s.popLatency).reply = s.reply := rfl
@[simp] theorem popLatency_freeIx (s : State) :
    (s.popLatency).freeIx = s.freeIx := rfl

/-! ## `launch` -/

@[simp] theorem launch_width (s : State) (i : Instr) (n : Nat) :
    (s.launch i n).width = s.width := rfl
@[simp] theorem launch_windowBase (s : State) (i : Instr) (n : Nat) :
    (s.launch i n).windowBase = s.windowBase := rfl
@[simp] theorem launch_S (s : State) (i : Instr) (n : Nat) :
    (s.launch i n).S = s.S := rfl
@[simp] theorem launch_phase (s : State) (i : Instr) (n : Nat) :
    (s.launch i n).phase = s.phase := rfl
@[simp] theorem launch_apos (s : State) (i : Instr) (n : Nat) :
    (s.launch i n).apos = s.apos := rfl
@[simp] theorem launch_spos (s : State) (i : Instr) (n : Nat) :
    (s.launch i n).spos = s.spos := rfl
@[simp] theorem launch_remain (s : State) (i : Instr) (n : Nat) :
    (s.launch i n).remain = s.remain := rfl
@[simp] theorem launch_ract (s : State) (i : Instr) (n : Nat) :
    (s.launch i n).ract = s.ract := rfl
@[simp] theorem launch_nract (s : State) (i : Instr) (n : Nat) :
    (s.launch i n).nract = s.nract := rfl
@[simp] theorem launch_sfxlenact (s : State) (i : Instr) (n : Nat) :
    (s.launch i n).sfxlenact = s.sfxlenact := rfl
@[simp] theorem launch_sfxact (s : State) (i : Instr) (n : Nat) :
    (s.launch i n).sfxact = s.sfxact := rfl
@[simp] theorem launch_err (s : State) (i : Instr) (n : Nat) :
    (s.launch i n).err = s.err := rfl
@[simp] theorem launch_erropc (s : State) (i : Instr) (n : Nat) :
    (s.launch i n).erropc = s.erropc := rfl
@[simp] theorem launch_cfg (s : State) (i : Instr) (n : Nat) :
    (s.launch i n).cfg = s.cfg := rfl
@[simp] theorem launch_outlen (s : State) (i : Instr) (n : Nat) :
    (s.launch i n).outlen = s.outlen := rfl
@[simp] theorem launch_din (s : State) (i : Instr) (n : Nat) :
    (s.launch i n).din = s.din := rfl
@[simp] theorem launch_dout (s : State) (i : Instr) (n : Nat) :
    (s.launch i n).dout = s.dout := rfl
@[simp] theorem launch_inflight (s : State) (i : Instr) (n : Nat) :
    (s.launch i n).inflight = some ⟨i, s.operands, n⟩ := rfl
@[simp] theorem launch_queue (s : State) (i : Instr) (n : Nat) :
    (s.launch i n).queue = s.queue := rfl
@[simp] theorem launch_latency (s : State) (i : Instr) (n : Nat) :
    (s.launch i n).latency = s.latency.tail := rfl
@[simp] theorem launch_reply (s : State) (i : Instr) (n : Nat) :
    (s.launch i n).reply = s.reply := rfl
@[simp] theorem launch_freeIx (s : State) (i : Instr) (n : Nat) :
    (s.launch i n).freeIx = s.freeIx := rfl

/-! ## `answer` -/

@[simp] theorem answer_width (s : State) (v : Word) :
    (s.answer v).width = s.width := rfl
@[simp] theorem answer_windowBase (s : State) (v : Word) :
    (s.answer v).windowBase = s.windowBase := rfl
@[simp] theorem answer_S (s : State) (v : Word) :
    (s.answer v).S = s.S := rfl
@[simp] theorem answer_phase (s : State) (v : Word) :
    (s.answer v).phase = s.phase := rfl
@[simp] theorem answer_apos (s : State) (v : Word) :
    (s.answer v).apos = s.apos := rfl
@[simp] theorem answer_spos (s : State) (v : Word) :
    (s.answer v).spos = s.spos := rfl
@[simp] theorem answer_remain (s : State) (v : Word) :
    (s.answer v).remain = s.remain := rfl
@[simp] theorem answer_ract (s : State) (v : Word) :
    (s.answer v).ract = s.ract := rfl
@[simp] theorem answer_nract (s : State) (v : Word) :
    (s.answer v).nract = s.nract := rfl
@[simp] theorem answer_sfxlenact (s : State) (v : Word) :
    (s.answer v).sfxlenact = s.sfxlenact := rfl
@[simp] theorem answer_sfxact (s : State) (v : Word) :
    (s.answer v).sfxact = s.sfxact := rfl
@[simp] theorem answer_err (s : State) (v : Word) :
    (s.answer v).err = s.err := rfl
@[simp] theorem answer_erropc (s : State) (v : Word) :
    (s.answer v).erropc = s.erropc := rfl
@[simp] theorem answer_cfg (s : State) (v : Word) :
    (s.answer v).cfg = s.cfg := rfl
@[simp] theorem answer_outlen (s : State) (v : Word) :
    (s.answer v).outlen = s.outlen := rfl
@[simp] theorem answer_din (s : State) (v : Word) :
    (s.answer v).din = s.din := rfl
@[simp] theorem answer_dout (s : State) (v : Word) :
    (s.answer v).dout = s.dout := rfl
@[simp] theorem answer_inflight (s : State) (v : Word) :
    (s.answer v).inflight = s.inflight := rfl
@[simp] theorem answer_queue (s : State) (v : Word) :
    (s.answer v).queue = s.queue := rfl
@[simp] theorem answer_latency (s : State) (v : Word) :
    (s.answer v).latency = s.latency := rfl
@[simp] theorem answer_reply (s : State) (v : Word) :
    (s.answer v).reply = some v := rfl
@[simp] theorem answer_freeIx (s : State) (v : Word) :
    (s.answer v).freeIx = s.freeIx := rfl

/-! ## `answerFree` -/

@[simp] theorem answerFree_width (s : State) :
    (s.answerFree).width = s.width := rfl
@[simp] theorem answerFree_windowBase (s : State) :
    (s.answerFree).windowBase = s.windowBase := rfl
@[simp] theorem answerFree_S (s : State) :
    (s.answerFree).S = s.S := rfl
@[simp] theorem answerFree_phase (s : State) :
    (s.answerFree).phase = s.phase := rfl
@[simp] theorem answerFree_apos (s : State) :
    (s.answerFree).apos = s.apos := rfl
@[simp] theorem answerFree_spos (s : State) :
    (s.answerFree).spos = s.spos := rfl
@[simp] theorem answerFree_remain (s : State) :
    (s.answerFree).remain = s.remain := rfl
@[simp] theorem answerFree_ract (s : State) :
    (s.answerFree).ract = s.ract := rfl
@[simp] theorem answerFree_nract (s : State) :
    (s.answerFree).nract = s.nract := rfl
@[simp] theorem answerFree_sfxlenact (s : State) :
    (s.answerFree).sfxlenact = s.sfxlenact := rfl
@[simp] theorem answerFree_sfxact (s : State) :
    (s.answerFree).sfxact = s.sfxact := rfl
@[simp] theorem answerFree_err (s : State) :
    (s.answerFree).err = s.err := rfl
@[simp] theorem answerFree_erropc (s : State) :
    (s.answerFree).erropc = s.erropc := rfl
@[simp] theorem answerFree_cfg (s : State) :
    (s.answerFree).cfg = s.cfg := rfl
@[simp] theorem answerFree_outlen (s : State) :
    (s.answerFree).outlen = s.outlen := rfl
@[simp] theorem answerFree_din (s : State) :
    (s.answerFree).din = s.din := rfl
@[simp] theorem answerFree_dout (s : State) :
    (s.answerFree).dout = s.dout := rfl
@[simp] theorem answerFree_inflight (s : State) :
    (s.answerFree).inflight = s.inflight := rfl
@[simp] theorem answerFree_queue (s : State) :
    (s.answerFree).queue = s.queue := rfl
@[simp] theorem answerFree_latency (s : State) :
    (s.answerFree).latency = s.latency := rfl
@[simp] theorem answerFree_reply (s : State) :
    (s.answerFree).reply = some (Config.busyRead s.freeIx) := rfl
@[simp] theorem answerFree_freeIx (s : State) :
    (s.answerFree).freeIx = s.freeIx + 1 := rfl

/-! ## `tick` -/

@[simp] theorem tick_width (s : State) :
    (s.tick).width = s.width := rfl
@[simp] theorem tick_windowBase (s : State) :
    (s.tick).windowBase = s.windowBase := rfl
@[simp] theorem tick_S (s : State) :
    (s.tick).S = s.S := rfl
@[simp] theorem tick_phase (s : State) :
    (s.tick).phase = s.phase := rfl
@[simp] theorem tick_apos (s : State) :
    (s.tick).apos = s.apos := rfl
@[simp] theorem tick_spos (s : State) :
    (s.tick).spos = s.spos := rfl
@[simp] theorem tick_remain (s : State) :
    (s.tick).remain = s.remain := rfl
@[simp] theorem tick_ract (s : State) :
    (s.tick).ract = s.ract := rfl
@[simp] theorem tick_nract (s : State) :
    (s.tick).nract = s.nract := rfl
@[simp] theorem tick_sfxlenact (s : State) :
    (s.tick).sfxlenact = s.sfxlenact := rfl
@[simp] theorem tick_sfxact (s : State) :
    (s.tick).sfxact = s.sfxact := rfl
@[simp] theorem tick_err (s : State) :
    (s.tick).err = s.err := rfl
@[simp] theorem tick_erropc (s : State) :
    (s.tick).erropc = s.erropc := rfl
@[simp] theorem tick_cfg (s : State) :
    (s.tick).cfg = s.cfg := rfl
@[simp] theorem tick_outlen (s : State) :
    (s.tick).outlen = s.outlen := rfl
@[simp] theorem tick_din (s : State) :
    (s.tick).din = s.din := rfl
@[simp] theorem tick_dout (s : State) :
    (s.tick).dout = s.dout := rfl
@[simp] theorem tick_inflight (s : State) :
    (s.tick).inflight = s.inflight.map fun f => { f with left := f.left - 1 } := rfl
@[simp] theorem tick_queue (s : State) :
    (s.tick).queue = s.queue := rfl
@[simp] theorem tick_latency (s : State) :
    (s.tick).latency = s.latency := rfl
@[simp] theorem tick_reply (s : State) :
    (s.tick).reply = s.reply := rfl
@[simp] theorem tick_freeIx (s : State) :
    (s.tick).freeIx = s.freeIx := rfl

/-! ## `clearEffect` -/

@[simp] theorem clearEffect_width (o : Operands) (s : State) :
    (clearEffect o s).width = s.width := rfl
@[simp] theorem clearEffect_windowBase (o : Operands) (s : State) :
    (clearEffect o s).windowBase = s.windowBase := rfl
@[simp] theorem clearEffect_S (o : Operands) (s : State) :
    (clearEffect o s).S = 0 := rfl
@[simp] theorem clearEffect_phase (o : Operands) (s : State) :
    (clearEffect o s).phase = .idle := rfl
@[simp] theorem clearEffect_apos (o : Operands) (s : State) :
    (clearEffect o s).apos = 0 := rfl
@[simp] theorem clearEffect_spos (o : Operands) (s : State) :
    (clearEffect o s).spos = 0 := rfl
@[simp] theorem clearEffect_remain (o : Operands) (s : State) :
    (clearEffect o s).remain = 0 := rfl
@[simp] theorem clearEffect_ract (o : Operands) (s : State) :
    (clearEffect o s).ract = 0 := rfl
@[simp] theorem clearEffect_nract (o : Operands) (s : State) :
    (clearEffect o s).nract = 0 := rfl
@[simp] theorem clearEffect_sfxlenact (o : Operands) (s : State) :
    (clearEffect o s).sfxlenact = 0 := rfl
@[simp] theorem clearEffect_sfxact (o : Operands) (s : State) :
    (clearEffect o s).sfxact = 0 := rfl
@[simp] theorem clearEffect_err (o : Operands) (s : State) :
    (clearEffect o s).err = .none := rfl
@[simp] theorem clearEffect_erropc (o : Operands) (s : State) :
    (clearEffect o s).erropc = 0 := rfl
@[simp] theorem clearEffect_cfg (o : Operands) (s : State) :
    (clearEffect o s).cfg = s.cfg := rfl
@[simp] theorem clearEffect_outlen (o : Operands) (s : State) :
    (clearEffect o s).outlen = s.outlen := rfl
@[simp] theorem clearEffect_din (o : Operands) (s : State) :
    (clearEffect o s).din = s.din := rfl
@[simp] theorem clearEffect_dout (o : Operands) (s : State) :
    (clearEffect o s).dout = 0 := rfl
@[simp] theorem clearEffect_inflight (o : Operands) (s : State) :
    (clearEffect o s).inflight = s.inflight := rfl
@[simp] theorem clearEffect_queue (o : Operands) (s : State) :
    (clearEffect o s).queue = s.queue := rfl
@[simp] theorem clearEffect_latency (o : Operands) (s : State) :
    (clearEffect o s).latency = s.latency := rfl
@[simp] theorem clearEffect_reply (o : Operands) (s : State) :
    (clearEffect o s).reply = s.reply := rfl
@[simp] theorem clearEffect_freeIx (o : Operands) (s : State) :
    (clearEffect o s).freeIx = s.freeIx := rfl

/-! ## `permuteEffect` -/

@[simp] theorem permuteEffect_width (o : Operands) (s : State) :
    (permuteEffect o s).width = s.width := rfl
@[simp] theorem permuteEffect_windowBase (o : Operands) (s : State) :
    (permuteEffect o s).windowBase = s.windowBase := rfl
@[simp] theorem permuteEffect_S (o : Operands) (s : State) :
    (permuteEffect o s).S = keccakP s.width (cfgNr o.cfg).toNat s.S := rfl
@[simp] theorem permuteEffect_phase (o : Operands) (s : State) :
    (permuteEffect o s).phase = s.phase := rfl
@[simp] theorem permuteEffect_apos (o : Operands) (s : State) :
    (permuteEffect o s).apos = s.apos := rfl
@[simp] theorem permuteEffect_spos (o : Operands) (s : State) :
    (permuteEffect o s).spos = s.spos := rfl
@[simp] theorem permuteEffect_remain (o : Operands) (s : State) :
    (permuteEffect o s).remain = s.remain := rfl
@[simp] theorem permuteEffect_ract (o : Operands) (s : State) :
    (permuteEffect o s).ract = s.ract := rfl
@[simp] theorem permuteEffect_nract (o : Operands) (s : State) :
    (permuteEffect o s).nract = s.nract := rfl
@[simp] theorem permuteEffect_sfxlenact (o : Operands) (s : State) :
    (permuteEffect o s).sfxlenact = s.sfxlenact := rfl
@[simp] theorem permuteEffect_sfxact (o : Operands) (s : State) :
    (permuteEffect o s).sfxact = s.sfxact := rfl
@[simp] theorem permuteEffect_err (o : Operands) (s : State) :
    (permuteEffect o s).err = s.err := rfl
@[simp] theorem permuteEffect_erropc (o : Operands) (s : State) :
    (permuteEffect o s).erropc = s.erropc := rfl
@[simp] theorem permuteEffect_cfg (o : Operands) (s : State) :
    (permuteEffect o s).cfg = s.cfg := rfl
@[simp] theorem permuteEffect_outlen (o : Operands) (s : State) :
    (permuteEffect o s).outlen = s.outlen := rfl
@[simp] theorem permuteEffect_din (o : Operands) (s : State) :
    (permuteEffect o s).din = s.din := rfl
@[simp] theorem permuteEffect_dout (o : Operands) (s : State) :
    (permuteEffect o s).dout = s.dout := rfl
@[simp] theorem permuteEffect_inflight (o : Operands) (s : State) :
    (permuteEffect o s).inflight = s.inflight := rfl
@[simp] theorem permuteEffect_queue (o : Operands) (s : State) :
    (permuteEffect o s).queue = s.queue := rfl
@[simp] theorem permuteEffect_latency (o : Operands) (s : State) :
    (permuteEffect o s).latency = s.latency := rfl
@[simp] theorem permuteEffect_reply (o : Operands) (s : State) :
    (permuteEffect o s).reply = s.reply := rfl
@[simp] theorem permuteEffect_freeIx (o : Operands) (s : State) :
    (permuteEffect o s).freeIx = s.freeIx := rfl

/-! ## `xorlaneEffect` -/

@[simp] theorem xorlaneEffect_width (k : Nat) (o : Operands) (s : State) :
    (xorlaneEffect k o s).width = s.width := rfl
@[simp] theorem xorlaneEffect_windowBase (k : Nat) (o : Operands) (s : State) :
    (xorlaneEffect k o s).windowBase = s.windowBase := rfl
@[simp] theorem xorlaneEffect_S (k : Nat) (o : Operands) (s : State) :
    (xorlaneEffect k o s).S = xorLane s.width k (laneOperand s.width o.din) s.S := rfl
@[simp] theorem xorlaneEffect_phase (k : Nat) (o : Operands) (s : State) :
    (xorlaneEffect k o s).phase = s.phase := rfl
@[simp] theorem xorlaneEffect_apos (k : Nat) (o : Operands) (s : State) :
    (xorlaneEffect k o s).apos = s.apos := rfl
@[simp] theorem xorlaneEffect_spos (k : Nat) (o : Operands) (s : State) :
    (xorlaneEffect k o s).spos = s.spos := rfl
@[simp] theorem xorlaneEffect_remain (k : Nat) (o : Operands) (s : State) :
    (xorlaneEffect k o s).remain = s.remain := rfl
@[simp] theorem xorlaneEffect_ract (k : Nat) (o : Operands) (s : State) :
    (xorlaneEffect k o s).ract = s.ract := rfl
@[simp] theorem xorlaneEffect_nract (k : Nat) (o : Operands) (s : State) :
    (xorlaneEffect k o s).nract = s.nract := rfl
@[simp] theorem xorlaneEffect_sfxlenact (k : Nat) (o : Operands) (s : State) :
    (xorlaneEffect k o s).sfxlenact = s.sfxlenact := rfl
@[simp] theorem xorlaneEffect_sfxact (k : Nat) (o : Operands) (s : State) :
    (xorlaneEffect k o s).sfxact = s.sfxact := rfl
@[simp] theorem xorlaneEffect_err (k : Nat) (o : Operands) (s : State) :
    (xorlaneEffect k o s).err = s.err := rfl
@[simp] theorem xorlaneEffect_erropc (k : Nat) (o : Operands) (s : State) :
    (xorlaneEffect k o s).erropc = s.erropc := rfl
@[simp] theorem xorlaneEffect_cfg (k : Nat) (o : Operands) (s : State) :
    (xorlaneEffect k o s).cfg = s.cfg := rfl
@[simp] theorem xorlaneEffect_outlen (k : Nat) (o : Operands) (s : State) :
    (xorlaneEffect k o s).outlen = s.outlen := rfl
@[simp] theorem xorlaneEffect_din (k : Nat) (o : Operands) (s : State) :
    (xorlaneEffect k o s).din = s.din := rfl
@[simp] theorem xorlaneEffect_dout (k : Nat) (o : Operands) (s : State) :
    (xorlaneEffect k o s).dout = s.dout := rfl
@[simp] theorem xorlaneEffect_inflight (k : Nat) (o : Operands) (s : State) :
    (xorlaneEffect k o s).inflight = s.inflight := rfl
@[simp] theorem xorlaneEffect_queue (k : Nat) (o : Operands) (s : State) :
    (xorlaneEffect k o s).queue = s.queue := rfl
@[simp] theorem xorlaneEffect_latency (k : Nat) (o : Operands) (s : State) :
    (xorlaneEffect k o s).latency = s.latency := rfl
@[simp] theorem xorlaneEffect_reply (k : Nat) (o : Operands) (s : State) :
    (xorlaneEffect k o s).reply = s.reply := rfl
@[simp] theorem xorlaneEffect_freeIx (k : Nat) (o : Operands) (s : State) :
    (xorlaneEffect k o s).freeIx = s.freeIx := rfl

/-! ## `loadlaneEffect` -/

@[simp] theorem loadlaneEffect_width (k : Nat) (o : Operands) (s : State) :
    (loadlaneEffect k o s).width = s.width := rfl
@[simp] theorem loadlaneEffect_windowBase (k : Nat) (o : Operands) (s : State) :
    (loadlaneEffect k o s).windowBase = s.windowBase := rfl
@[simp] theorem loadlaneEffect_S (k : Nat) (o : Operands) (s : State) :
    (loadlaneEffect k o s).S = loadLane s.width k (laneOperand s.width o.din) s.S := rfl
@[simp] theorem loadlaneEffect_phase (k : Nat) (o : Operands) (s : State) :
    (loadlaneEffect k o s).phase = s.phase := rfl
@[simp] theorem loadlaneEffect_apos (k : Nat) (o : Operands) (s : State) :
    (loadlaneEffect k o s).apos = s.apos := rfl
@[simp] theorem loadlaneEffect_spos (k : Nat) (o : Operands) (s : State) :
    (loadlaneEffect k o s).spos = s.spos := rfl
@[simp] theorem loadlaneEffect_remain (k : Nat) (o : Operands) (s : State) :
    (loadlaneEffect k o s).remain = s.remain := rfl
@[simp] theorem loadlaneEffect_ract (k : Nat) (o : Operands) (s : State) :
    (loadlaneEffect k o s).ract = s.ract := rfl
@[simp] theorem loadlaneEffect_nract (k : Nat) (o : Operands) (s : State) :
    (loadlaneEffect k o s).nract = s.nract := rfl
@[simp] theorem loadlaneEffect_sfxlenact (k : Nat) (o : Operands) (s : State) :
    (loadlaneEffect k o s).sfxlenact = s.sfxlenact := rfl
@[simp] theorem loadlaneEffect_sfxact (k : Nat) (o : Operands) (s : State) :
    (loadlaneEffect k o s).sfxact = s.sfxact := rfl
@[simp] theorem loadlaneEffect_err (k : Nat) (o : Operands) (s : State) :
    (loadlaneEffect k o s).err = s.err := rfl
@[simp] theorem loadlaneEffect_erropc (k : Nat) (o : Operands) (s : State) :
    (loadlaneEffect k o s).erropc = s.erropc := rfl
@[simp] theorem loadlaneEffect_cfg (k : Nat) (o : Operands) (s : State) :
    (loadlaneEffect k o s).cfg = s.cfg := rfl
@[simp] theorem loadlaneEffect_outlen (k : Nat) (o : Operands) (s : State) :
    (loadlaneEffect k o s).outlen = s.outlen := rfl
@[simp] theorem loadlaneEffect_din (k : Nat) (o : Operands) (s : State) :
    (loadlaneEffect k o s).din = s.din := rfl
@[simp] theorem loadlaneEffect_dout (k : Nat) (o : Operands) (s : State) :
    (loadlaneEffect k o s).dout = s.dout := rfl
@[simp] theorem loadlaneEffect_inflight (k : Nat) (o : Operands) (s : State) :
    (loadlaneEffect k o s).inflight = s.inflight := rfl
@[simp] theorem loadlaneEffect_queue (k : Nat) (o : Operands) (s : State) :
    (loadlaneEffect k o s).queue = s.queue := rfl
@[simp] theorem loadlaneEffect_latency (k : Nat) (o : Operands) (s : State) :
    (loadlaneEffect k o s).latency = s.latency := rfl
@[simp] theorem loadlaneEffect_reply (k : Nat) (o : Operands) (s : State) :
    (loadlaneEffect k o s).reply = s.reply := rfl
@[simp] theorem loadlaneEffect_freeIx (k : Nat) (o : Operands) (s : State) :
    (loadlaneEffect k o s).freeIx = s.freeIx := rfl

/-! ## `absorbEffect` -/

@[simp] theorem absorbEffect_width (n : Nat) (o : Operands) (s : State) :
    (absorbEffect n o s).width = s.width := rfl
@[simp] theorem absorbEffect_windowBase (n : Nat) (o : Operands) (s : State) :
    (absorbEffect n o s).windowBase = s.windowBase := rfl
@[simp] theorem absorbEffect_S (n : Nat) (o : Operands) (s : State) :
    (absorbEffect n o s).S = (absorbBits s.width s.ract s.nract s.absorber (wordBits o.din n)).S := rfl
@[simp] theorem absorbEffect_phase (n : Nat) (o : Operands) (s : State) :
    (absorbEffect n o s).phase = s.phase := rfl
@[simp] theorem absorbEffect_apos (n : Nat) (o : Operands) (s : State) :
    (absorbEffect n o s).apos = (absorbBits s.width s.ract s.nract s.absorber (wordBits o.din n)).apos := rfl
@[simp] theorem absorbEffect_spos (n : Nat) (o : Operands) (s : State) :
    (absorbEffect n o s).spos = s.spos := rfl
@[simp] theorem absorbEffect_remain (n : Nat) (o : Operands) (s : State) :
    (absorbEffect n o s).remain = s.remain := rfl
@[simp] theorem absorbEffect_ract (n : Nat) (o : Operands) (s : State) :
    (absorbEffect n o s).ract = s.ract := rfl
@[simp] theorem absorbEffect_nract (n : Nat) (o : Operands) (s : State) :
    (absorbEffect n o s).nract = s.nract := rfl
@[simp] theorem absorbEffect_sfxlenact (n : Nat) (o : Operands) (s : State) :
    (absorbEffect n o s).sfxlenact = s.sfxlenact := rfl
@[simp] theorem absorbEffect_sfxact (n : Nat) (o : Operands) (s : State) :
    (absorbEffect n o s).sfxact = s.sfxact := rfl
@[simp] theorem absorbEffect_err (n : Nat) (o : Operands) (s : State) :
    (absorbEffect n o s).err = s.err := rfl
@[simp] theorem absorbEffect_erropc (n : Nat) (o : Operands) (s : State) :
    (absorbEffect n o s).erropc = s.erropc := rfl
@[simp] theorem absorbEffect_cfg (n : Nat) (o : Operands) (s : State) :
    (absorbEffect n o s).cfg = s.cfg := rfl
@[simp] theorem absorbEffect_outlen (n : Nat) (o : Operands) (s : State) :
    (absorbEffect n o s).outlen = s.outlen := rfl
@[simp] theorem absorbEffect_din (n : Nat) (o : Operands) (s : State) :
    (absorbEffect n o s).din = s.din := rfl
@[simp] theorem absorbEffect_dout (n : Nat) (o : Operands) (s : State) :
    (absorbEffect n o s).dout = s.dout := rfl
@[simp] theorem absorbEffect_inflight (n : Nat) (o : Operands) (s : State) :
    (absorbEffect n o s).inflight = s.inflight := rfl
@[simp] theorem absorbEffect_queue (n : Nat) (o : Operands) (s : State) :
    (absorbEffect n o s).queue = s.queue := rfl
@[simp] theorem absorbEffect_latency (n : Nat) (o : Operands) (s : State) :
    (absorbEffect n o s).latency = s.latency := rfl
@[simp] theorem absorbEffect_reply (n : Nat) (o : Operands) (s : State) :
    (absorbEffect n o s).reply = s.reply := rfl
@[simp] theorem absorbEffect_freeIx (n : Nat) (o : Operands) (s : State) :
    (absorbEffect n o s).freeIx = s.freeIx := rfl

/-! ## `finalEffect` -/

@[simp] theorem finalEffect_width (o : Operands) (s : State) :
    (finalEffect o s).width = s.width := rfl
@[simp] theorem finalEffect_windowBase (o : Operands) (s : State) :
    (finalEffect o s).windowBase = s.windowBase := rfl
@[simp] theorem finalEffect_S (o : Operands) (s : State) :
    (finalEffect o s).S = (finalAbsorb s).S := rfl
@[simp] theorem finalEffect_phase (o : Operands) (s : State) :
    (finalEffect o s).phase = .squeeze := rfl
@[simp] theorem finalEffect_apos (o : Operands) (s : State) :
    (finalEffect o s).apos = (finalAbsorb s).apos := rfl
@[simp] theorem finalEffect_spos (o : Operands) (s : State) :
    (finalEffect o s).spos = 0 := rfl
@[simp] theorem finalEffect_remain (o : Operands) (s : State) :
    (finalEffect o s).remain = s.remain := rfl
@[simp] theorem finalEffect_ract (o : Operands) (s : State) :
    (finalEffect o s).ract = s.ract := rfl
@[simp] theorem finalEffect_nract (o : Operands) (s : State) :
    (finalEffect o s).nract = s.nract := rfl
@[simp] theorem finalEffect_sfxlenact (o : Operands) (s : State) :
    (finalEffect o s).sfxlenact = s.sfxlenact := rfl
@[simp] theorem finalEffect_sfxact (o : Operands) (s : State) :
    (finalEffect o s).sfxact = s.sfxact := rfl
@[simp] theorem finalEffect_err (o : Operands) (s : State) :
    (finalEffect o s).err = s.err := rfl
@[simp] theorem finalEffect_erropc (o : Operands) (s : State) :
    (finalEffect o s).erropc = s.erropc := rfl
@[simp] theorem finalEffect_cfg (o : Operands) (s : State) :
    (finalEffect o s).cfg = s.cfg := rfl
@[simp] theorem finalEffect_outlen (o : Operands) (s : State) :
    (finalEffect o s).outlen = s.outlen := rfl
@[simp] theorem finalEffect_din (o : Operands) (s : State) :
    (finalEffect o s).din = s.din := rfl
@[simp] theorem finalEffect_dout (o : Operands) (s : State) :
    (finalEffect o s).dout = s.dout := rfl
@[simp] theorem finalEffect_inflight (o : Operands) (s : State) :
    (finalEffect o s).inflight = s.inflight := rfl
@[simp] theorem finalEffect_queue (o : Operands) (s : State) :
    (finalEffect o s).queue = s.queue := rfl
@[simp] theorem finalEffect_latency (o : Operands) (s : State) :
    (finalEffect o s).latency = s.latency := rfl
@[simp] theorem finalEffect_reply (o : Operands) (s : State) :
    (finalEffect o s).reply = s.reply := rfl
@[simp] theorem finalEffect_freeIx (o : Operands) (s : State) :
    (finalEffect o s).freeIx = s.freeIx := rfl

/-! ## `squeezeEffect` -/

@[simp] theorem squeezeEffect_width (n : Nat) (o : Operands) (s : State) :
    (squeezeEffect n o s).width = s.width := rfl
@[simp] theorem squeezeEffect_windowBase (n : Nat) (o : Operands) (s : State) :
    (squeezeEffect n o s).windowBase = s.windowBase := rfl
@[simp] theorem squeezeEffect_S (n : Nat) (o : Operands) (s : State) :
    (squeezeEffect n o s).S = (squeezeBits s.width s.ract s.nract n ⟨s.S, s.spos⟩).2.S := rfl
@[simp] theorem squeezeEffect_phase (n : Nat) (o : Operands) (s : State) :
    (squeezeEffect n o s).phase = if s.remain - BitVec.ofNat 32 n = 0 then .done else s.phase := rfl
@[simp] theorem squeezeEffect_apos (n : Nat) (o : Operands) (s : State) :
    (squeezeEffect n o s).apos = s.apos := rfl
@[simp] theorem squeezeEffect_spos (n : Nat) (o : Operands) (s : State) :
    (squeezeEffect n o s).spos = (squeezeBits s.width s.ract s.nract n ⟨s.S, s.spos⟩).2.spos := rfl
@[simp] theorem squeezeEffect_remain (n : Nat) (o : Operands) (s : State) :
    (squeezeEffect n o s).remain = s.remain - BitVec.ofNat 32 n := rfl
@[simp] theorem squeezeEffect_ract (n : Nat) (o : Operands) (s : State) :
    (squeezeEffect n o s).ract = s.ract := rfl
@[simp] theorem squeezeEffect_nract (n : Nat) (o : Operands) (s : State) :
    (squeezeEffect n o s).nract = s.nract := rfl
@[simp] theorem squeezeEffect_sfxlenact (n : Nat) (o : Operands) (s : State) :
    (squeezeEffect n o s).sfxlenact = s.sfxlenact := rfl
@[simp] theorem squeezeEffect_sfxact (n : Nat) (o : Operands) (s : State) :
    (squeezeEffect n o s).sfxact = s.sfxact := rfl
@[simp] theorem squeezeEffect_err (n : Nat) (o : Operands) (s : State) :
    (squeezeEffect n o s).err = s.err := rfl
@[simp] theorem squeezeEffect_erropc (n : Nat) (o : Operands) (s : State) :
    (squeezeEffect n o s).erropc = s.erropc := rfl
@[simp] theorem squeezeEffect_cfg (n : Nat) (o : Operands) (s : State) :
    (squeezeEffect n o s).cfg = s.cfg := rfl
@[simp] theorem squeezeEffect_outlen (n : Nat) (o : Operands) (s : State) :
    (squeezeEffect n o s).outlen = s.outlen := rfl
@[simp] theorem squeezeEffect_din (n : Nat) (o : Operands) (s : State) :
    (squeezeEffect n o s).din = s.din := rfl
@[simp] theorem squeezeEffect_dout (n : Nat) (o : Operands) (s : State) :
    (squeezeEffect n o s).dout = bitsWord 64 (squeezeBits s.width s.ract s.nract n ⟨s.S, s.spos⟩).1 := rfl
@[simp] theorem squeezeEffect_inflight (n : Nat) (o : Operands) (s : State) :
    (squeezeEffect n o s).inflight = s.inflight := rfl
@[simp] theorem squeezeEffect_queue (n : Nat) (o : Operands) (s : State) :
    (squeezeEffect n o s).queue = s.queue := rfl
@[simp] theorem squeezeEffect_latency (n : Nat) (o : Operands) (s : State) :
    (squeezeEffect n o s).latency = s.latency := rfl
@[simp] theorem squeezeEffect_reply (n : Nat) (o : Operands) (s : State) :
    (squeezeEffect n o s).reply = s.reply := rfl
@[simp] theorem squeezeEffect_freeIx (n : Nat) (o : Operands) (s : State) :
    (squeezeEffect n o s).freeIx = s.freeIx := rfl

/-! ## `initEffect` -/

@[simp] theorem initEffect_width (o : Operands) (s : State) :
    (initEffect o s).width = s.width := by unfold initEffect; split <;> rfl
@[simp] theorem initEffect_windowBase (o : Operands) (s : State) :
    (initEffect o s).windowBase = s.windowBase := by unfold initEffect; split <;> rfl
@[simp] theorem initEffect_err (o : Operands) (s : State) :
    (initEffect o s).err = s.err := by unfold initEffect; split <;> rfl
@[simp] theorem initEffect_erropc (o : Operands) (s : State) :
    (initEffect o s).erropc = s.erropc := by unfold initEffect; split <;> rfl
@[simp] theorem initEffect_cfg (o : Operands) (s : State) :
    (initEffect o s).cfg = s.cfg := by unfold initEffect; split <;> rfl
@[simp] theorem initEffect_outlen (o : Operands) (s : State) :
    (initEffect o s).outlen = s.outlen := by unfold initEffect; split <;> rfl
@[simp] theorem initEffect_din (o : Operands) (s : State) :
    (initEffect o s).din = s.din := by unfold initEffect; split <;> rfl
@[simp] theorem initEffect_inflight (o : Operands) (s : State) :
    (initEffect o s).inflight = s.inflight := by unfold initEffect; split <;> rfl
@[simp] theorem initEffect_queue (o : Operands) (s : State) :
    (initEffect o s).queue = s.queue := by unfold initEffect; split <;> rfl
@[simp] theorem initEffect_latency (o : Operands) (s : State) :
    (initEffect o s).latency = s.latency := by unfold initEffect; split <;> rfl
@[simp] theorem initEffect_reply (o : Operands) (s : State) :
    (initEffect o s).reply = s.reply := by unfold initEffect; split <;> rfl
@[simp] theorem initEffect_freeIx (o : Operands) (s : State) :
    (initEffect o s).freeIx = s.freeIx := by unfold initEffect; split <;> rfl

/-! ## `afterReset` -/

@[simp] theorem afterReset_width (s : State) : s.afterReset.width = s.width := rfl
@[simp] theorem afterReset_windowBase (s : State) : s.afterReset.windowBase = s.windowBase := rfl
@[simp] theorem afterReset_S (s : State) : s.afterReset.S = 0 := rfl
@[simp] theorem afterReset_phase (s : State) : s.afterReset.phase = .idle := rfl
@[simp] theorem afterReset_apos (s : State) : s.afterReset.apos = 0 := rfl
@[simp] theorem afterReset_spos (s : State) : s.afterReset.spos = 0 := rfl
@[simp] theorem afterReset_remain (s : State) : s.afterReset.remain = 0 := rfl
@[simp] theorem afterReset_ract (s : State) : s.afterReset.ract = 0 := rfl
@[simp] theorem afterReset_nract (s : State) : s.afterReset.nract = 0 := rfl
@[simp] theorem afterReset_sfxlenact (s : State) : s.afterReset.sfxlenact = 0 := rfl
@[simp] theorem afterReset_sfxact (s : State) : s.afterReset.sfxact = 0 := rfl
@[simp] theorem afterReset_err (s : State) : s.afterReset.err = .none := rfl
@[simp] theorem afterReset_erropc (s : State) : s.afterReset.erropc = 0 := rfl
@[simp] theorem afterReset_cfg (s : State) : s.afterReset.cfg = s.width.resetCfg := rfl
@[simp] theorem afterReset_outlen (s : State) : s.afterReset.outlen = 0 := rfl
@[simp] theorem afterReset_din (s : State) : s.afterReset.din = 0 := rfl
@[simp] theorem afterReset_dout (s : State) : s.afterReset.dout = 0 := rfl
@[simp] theorem afterReset_inflight (s : State) : s.afterReset.inflight = none := rfl
@[simp] theorem afterReset_queue (s : State) : s.afterReset.queue = s.queue := rfl
@[simp] theorem afterReset_latency (s : State) : s.afterReset.latency = s.latency := rfl
@[simp] theorem afterReset_reply (s : State) : s.afterReset.reply = s.reply := rfl
@[simp] theorem afterReset_freeIx (s : State) : s.afterReset.freeIx = s.freeIx := rfl

end Sys2Proof.Machine
end

