-- ==== Sys2Proof/Laws/Ops.lean ====
section
/-! SUPPORT. What each shared operation can do, said once: issuing a command, the register window, the
transactions and the step. Provers cite these instead of unfolding the operations. -/

namespace Sys2Proof.Machine

/-! ## BUSY -/

theorem busy_eq_false_iff {s : State} : s.busy = false ↔ s.inflight = none := by
  simp [State.busy]

theorem busy_eq_true_iff {s : State} : s.busy = true ↔ ∃ f, s.inflight = some f := by
  simp [State.busy, Option.isSome_iff_exists]

/-! ## Rejecting -/

theorem reject_of_no_error {s : State} (h : s.err = .none) (e : ErrCode) (opc : BitVec 4) :
    s.reject e opc = { s with err := e, erropc := opc } := by
  simp [State.reject, h]

theorem reject_of_error {s : State} (h : s.err ≠ .none) (e : ErrCode) (opc : BitVec 4) :
    s.reject e opc = s := by
  simp [State.reject, h]

/-! ## Issuing -/

theorem accept_at_once (i : Instr) (eff : Operands → State → State) {s : State} (h : s.AtOnce) :
    accept i eff s = eff s.operands s.popLatency := by
  simp [accept, h]

theorem accept_in_flight (i : Instr) (eff : Operands → State → State) {s : State}
    (h : s.nextLatency ≠ 0) : accept i eff s = s.launch i s.nextLatency := by
  simp [accept, h]

theorem issue_busy (i : Instr) (eff : Operands → State → State) {s : State} (h : s.busy = true) :
    issue i eff s = .next (s.reject .busy i.opcode) := by
  simp [issue, h]

theorem issue_sticky {i : Instr} (eff : Operands → State → State) {s : State} (hb : s.inflight = none)
    (he : s.err ≠ .none) (hi : i ≠ .clear) : issue i eff s = .next s := by
  simp [issue, busy_eq_false_iff.2 hb, he, hi]

theorem issue_rejected {i : Instr} (eff : Operands → State → State) {s : State} (hs : s.Ready)
    (h : commandError i s.operands s ≠ .none) :
    issue i eff s =
      .next { s with err := commandError i s.operands s, erropc := i.opcode } := by
  simp [issue, busy_eq_false_iff.2 hs.1, hs.2, h, reject_of_no_error hs.2]

theorem issue_accepted {i : Instr} (eff : Operands → State → State) {s : State}
    (hb : s.inflight = none) (he : s.err = .none ∨ i = .clear)
    (h : commandError i s.operands s = .none) : issue i eff s = .next (accept i eff s) := by
  have : ¬(s.err ≠ .none ∧ i ≠ .clear) := by rintro ⟨h1, h2⟩; exact he.elim h1 h2
  simp only [issue, busy_eq_false_iff.2 hb, Bool.false_eq_true, if_false, if_neg this, h, ne_eq,
    not_true_eq_false]

/-- Everything a CMD write of a legal command can do. -/
theorem issue_cases (i : Instr) (eff : Operands → State → State) (s : State) :
    (s.busy = true ∧ issue i eff s = .next (s.reject .busy i.opcode)) ∨
    (s.inflight = none ∧ s.err ≠ .none ∧ i ≠ .clear ∧ issue i eff s = .next s) ∨
    (s.inflight = none ∧ (s.err = .none ∨ i = .clear) ∧ commandError i s.operands s ≠ .none ∧
      issue i eff s = .next (s.reject (commandError i s.operands s) i.opcode)) ∨
    (s.inflight = none ∧ (s.err = .none ∨ i = .clear) ∧ commandError i s.operands s = .none ∧
      issue i eff s = .next (accept i eff s)) := by
  cases hb : s.busy with
  | true => exact .inl ⟨rfl, issue_busy i eff hb⟩
  | false =>
    have hn := busy_eq_false_iff.1 hb
    by_cases he : s.err ≠ .none ∧ i ≠ .clear
    · exact .inr (.inl ⟨hn, he.1, he.2, issue_sticky eff hn he.1 he.2⟩)
    · have he' : s.err = .none ∨ i = .clear := by
        by_cases h : s.err = .none
        · exact .inl h
        · exact .inr (not_not.1 fun hc => he ⟨h, hc⟩)
      by_cases hc : commandError i s.operands s = .none
      · exact .inr (.inr (.inr ⟨hn, he', hc, issue_accepted eff hn he' hc⟩))
      · exact .inr (.inr (.inl ⟨hn, he', hc, by simp [issue, hb, he, hc]⟩))

/-- A command write is `issue` of the command with its effect. -/
theorem exec_eq_issue (i : Instr) (s : State) : exec i s = issue i (effectOf i) s := by
  cases i <;> rfl

theorem issueWord_of_decode {v : Word} {i : Instr} (h : decode v = .ok i) (s : State) :
    issueWord v s = exec i s := by
  simp [issueWord, h]

theorem issueWord_of_illegal {v : Word} {e : Illegal} (h : decode v = .error e) (s : State) :
    issueWord v s = .next (s.illegalWord v) := by
  simp [issueWord, h]

/-! ## The sponge primitives -/

theorem absorbBits_nil (w : Width) (r : BitVec 11) (nr : BitVec 5) (a : Absorber) :
    absorbBits w r nr a [] = a := rfl

theorem absorbBits_cons (w : Width) (r : BitVec 11) (nr : BitVec 5) (a : Absorber) (b : Bool)
    (rest : List Bool) :
    absorbBits w r nr a (b :: rest) = absorbBits w r nr (absorbBit w r nr a b) rest := rfl

/-- Absorbing does not depend on how the bits are split (R149). -/
theorem absorbBits_append (w : Width) (r : BitVec 11) (nr : BitVec 5) (a : Absorber) (p q : List Bool) :
    absorbBits w r nr a (p ++ q) = absorbBits w r nr (absorbBits w r nr a p) q := by
  simp [absorbBits, List.foldl_append]

theorem squeezeBits_succ (w : Width) (r : BitVec 11) (nr : BitVec 5) (n : Nat) (q : Squeezer) :
    squeezeBits w r nr (n + 1) q =
      ((squeezeBit w r nr q).1 :: (squeezeBits w r nr n (squeezeBit w r nr q).2).1,
        (squeezeBits w r nr n (squeezeBit w r nr q).2).2) := rfl

theorem squeezeBits_length (w : Width) (r : BitVec 11) (nr : BitVec 5) (n : Nat) (q : Squeezer) :
    (squeezeBits w r nr n q).1.length = n := by
  induction n generalizing q with
  | zero => rfl
  | succ n ih => simp [squeezeBits_succ, ih]

theorem wordBits_length {m : Nat} (v : BitVec m) (n : Nat) : (wordBits v n).length = n := by
  simp [wordBits]

/-! ## The register window -/

theorem regAt_offset (r : Reg) : regAt r.offset = some r := by
  cases r with
  | lane k => revert k; decide
  | _ => rfl

theorem offset_aligned (r : Reg) : supportedAccess r.offset 8 = true := by
  cases r with
  | lane k => revert k; decide
  | _ => rfl

theorem windowOffset_reg (base : Nat) (r : Reg) :
    windowOffset base (base + r.offset) = some r.offset := by
  have h : r.offset < windowBytes := by
    cases r with
    | lane k => revert k; decide
    | _ => decide
  simp [windowOffset, h]

/-- A supported read of a named register. -/
theorem hostRead_reg (r : Reg) (s : State) :
    hostRead (s.windowBase + r.offset) 8 s = .next (s.readReg r) := by
  simp [hostRead, windowOffset_reg, offset_aligned, regAt_offset]

/-- A supported write to a named register. -/
theorem hostWrite_reg (r : Reg) (v : Word) (s : State) :
    hostWrite (s.windowBase + r.offset) 8 v s = writeReg r v s := by
  simp [hostWrite, windowOffset_reg, offset_aligned, regAt_offset]

/-- Everything a host read can do. -/
theorem hostRead_cases (addr size : Nat) (s : State) :
    hostRead addr size s = .fault (.outsideWindow addr) ∨
    (∃ v, hostRead addr size s = .next (s.answer v)) ∨
    (s.busy = true ∧ hostRead addr size s = .next s.answerFree) := by
  unfold hostRead
  split
  · exact .inl rfl
  · split
    · exact .inr (.inl ⟨0, rfl⟩)
    · split
      · exact .inr (.inl ⟨0, rfl⟩)
      · unfold State.readReg
        split
        · exact .inr (.inr ⟨‹_ ∧ _›.1, rfl⟩)
        · exact .inr (.inl ⟨_, rfl⟩)

/-- Everything a host write can do. -/
theorem hostWrite_cases (addr size : Nat) (v : Word) (s : State) :
    hostWrite addr size v s = .fault (.outsideWindow addr) ∨
    hostWrite addr size v s = .next s ∨
    (addr = s.windowBase + 0x008 ∧ size = 8 ∧
      hostWrite addr size v s = .next { s with cfg := v &&& cfgMask }) ∨
    (addr = s.windowBase + 0x010 ∧ size = 8 ∧
      hostWrite addr size v s = .next { s with outlen := v &&& outlenMask }) ∨
    (addr = s.windowBase + 0x018 ∧ size = 8 ∧ hostWrite addr size v s = .next { s with din := v }) ∨
    (addr = s.windowBase + 0x020 ∧ size = 8 ∧ hostWrite addr size v s = issueWord v s) := by
  unfold hostWrite
  split
  · exact .inl rfl
  · rename_i off hoff
    split
    · exact .inr (.inl rfl)
    · rename_i hs
      have hsize : size = 8 := by
        simp [supportedAccess] at hs
        exact hs.1
      have haddr : addr = s.windowBase + off := by
        unfold windowOffset at hoff
        split_ifs at hoff
        simp at hoff
        omega
      split
      · exact .inr (.inl rfl)
      · rename_i r hr
        have hoffset : off = r.offset := by
          unfold regAt at hr
          split_ifs at hr <;> cases hr <;> simp_all [Reg.offset, supportedAccess]
          omega
        subst hoffset
        cases r with
        | cfg => exact .inr (.inr (.inl ⟨haddr, hsize, rfl⟩))
        | outlen => exact .inr (.inr (.inr (.inl ⟨haddr, hsize, rfl⟩)))
        | din => exact .inr (.inr (.inr (.inr (.inl ⟨haddr, hsize, rfl⟩))))
        | cmd => exact .inr (.inr (.inr (.inr (.inr ⟨haddr, hsize, rfl⟩))))
        | _ => exact .inr (.inl rfl)

/-! ## The step -/

theorem completing_eq_some {s : State} {f : InFlight} (h : s.inflight = some f)
    (hl : f.left = 0 ∨ s.queue = []) : s.completing = some f := by
  simp [State.completing, h, hl]

theorem completing_eq_none {s : State} {f : InFlight} (h : s.inflight = some f) (hl : f.left ≠ 0)
    (hq : s.queue ≠ []) : s.completing = none := by
  simp [State.completing, h, hl, hq]

theorem completing_of_idle {s : State} (h : s.inflight = none) : s.completing = none := by
  simp [State.completing, h]

theorem inflight_of_completing {s : State} {f : InFlight} (h : s.completing = some f) :
    s.inflight = some f := by
  unfold State.completing at h
  split at h
  · cases h
  · split at h
    · cases h; assumption
    · cases h

/-- A command completes only when its latency is used up or the host has no further transaction. -/
theorem due_of_completing {s : State} {f : InFlight} (h : s.completing = some f) :
    f.left = 0 ∨ s.queue = [] := by
  unfold State.completing at h
  rw [inflight_of_completing h] at h
  by_contra hc
  simp [hc] at h

/-- With nothing in flight a tick changes nothing. -/
theorem tick_of_idle {s : State} (h : s.inflight = none) : s.tick = s := by
  cases s; cases h; rfl

theorem step_completes {s : State} {f : InFlight} (h : s.completing = some f) :
    step s = .next (complete f s) := by
  simp [step, h]

theorem step_takes {s : State} (h : s.completing = none) {e : HostEvent} {rest : List HostEvent}
    (hq : s.queue = e :: rest) : step s = hostEvent e { s.tick with queue := rest } := by
  simp [step, h, takeEvent, hq]

theorem step_holds {s : State} (h : s.inflight = none) (hq : s.queue = []) : step s = .next s := by
  simp [step, completing_of_idle h, takeEvent, hq]

/-- Everything a step can do. -/
theorem step_cases (s : State) :
    (∃ f, s.inflight = some f ∧ (f.left = 0 ∨ s.queue = []) ∧ step s = .next (complete f s)) ∨
    (s.inflight = none ∧ s.queue = [] ∧ step s = .next s) ∨
    (∃ e rest, s.queue = e :: rest ∧ s.completing = none ∧
      step s = hostEvent e { s.tick with queue := rest }) := by
  cases hc : s.completing with
  | some f => exact .inl ⟨f, inflight_of_completing hc, due_of_completing hc, step_completes hc⟩
  | none =>
    cases hq : s.queue with
    | cons e rest => exact .inr (.inr ⟨e, rest, rfl, rfl, step_takes hc hq⟩)
    | nil =>
      cases hf : s.inflight with
      | none => exact .inr (.inl ⟨rfl, rfl, step_holds hf hq⟩)
      | some f => simp [completing_eq_some hf (.inr hq)] at hc

/-- Everything a CMD write of a legal command can do, the two outcomes of an accepted one apart. -/
theorem exec_cases (i : Instr) (s : State) :
    (s.busy = true ∧ exec i s = .next (s.reject .busy i.opcode)) ∨
    (s.inflight = none ∧ s.err ≠ .none ∧ i ≠ .clear ∧ exec i s = .next s) ∨
    (s.inflight = none ∧ (s.err = .none ∨ i = .clear) ∧ commandError i s.operands s ≠ .none ∧
      exec i s = .next (s.reject (commandError i s.operands s) i.opcode)) ∨
    (s.inflight = none ∧ (s.err = .none ∨ i = .clear) ∧ commandError i s.operands s = .none ∧
      s.nextLatency ≠ 0 ∧ exec i s = .next (s.launch i s.nextLatency)) ∨
    (s.inflight = none ∧ (s.err = .none ∨ i = .clear) ∧ commandError i s.operands s = .none ∧
      s.nextLatency = 0 ∧ exec i s = .next (effectOf i s.operands s.popLatency)) := by
  rw [exec_eq_issue]
  rcases issue_cases i (effectOf i) s with h | h | h | ⟨hb, he, hc, h⟩
  · exact .inl h
  · exact .inr (.inl h)
  · exact .inr (.inr (.inl h))
  · rw [h]
    by_cases hl : s.nextLatency = 0
    · exact .inr (.inr (.inr (.inr ⟨hb, he, hc, hl, by rw [accept_at_once _ _ hl]⟩)))
    · exact .inr (.inr (.inr (.inl ⟨hb, he, hc, hl, by rw [accept_in_flight _ _ hl]⟩)))

/-- What no command's effect changes. -/
theorem effectOf_keeps (i : Instr) (o : Operands) (s : State) :
    (effectOf i o s).width = s.width ∧ (effectOf i o s).windowBase = s.windowBase ∧
    (effectOf i o s).cfg = s.cfg ∧ (effectOf i o s).outlen = s.outlen ∧ (effectOf i o s).din = s.din ∧
    (effectOf i o s).inflight = s.inflight ∧ (effectOf i o s).queue = s.queue ∧
    (effectOf i o s).latency = s.latency ∧ (effectOf i o s).reply = s.reply ∧
    (effectOf i o s).freeIx = s.freeIx := by
  cases i <;> simp [effectOf, nopEffect]

/-- The checks at issue read B, PHASE and REMAIN, and nothing else of the state. -/
theorem commandError_congr {i : Instr} {o : Operands} {s t : State} (hw : t.width = s.width)
    (hp : t.phase = s.phase) (hr : t.remain = s.remain) : commandError i o t = commandError i o s := by
  unfold commandError initError permuteError squeezeError
  rw [hw, hp, hr]

/-- A command that passes the checks is in a phase that allows it. -/
theorem phaseAllows_of_accepted {i : Instr} {o : Operands} {s : State}
    (h : commandError i o s = .none) : phaseAllows i s.phase = true := by
  by_contra hc
  unfold commandError at h
  rw [if_pos (by simpa using hc)] at h
  cases h

/-- One more step of a run. -/
theorem run_succ {s t : State} (k : Nat) (h : step s = .next t) :
    Host.Core.run Sys2Proof.core (k + 1) s = Host.Core.run Sys2Proof.core k t := by
  have hrun : ∀ (M : Host.Core) (a b : M.State), M.step a = .next b → M.run (k + 1) a = M.run k b := by
    intro M a b h
    simp only [Host.Core.run, h]
  exact hrun Sys2Proof.core s t h

/-! ## Packed words -/

/-- Bit j of a field placed at bit `lo` of a register word. -/
theorem getLsbD_fieldAt {n : Nat} (v : BitVec n) (lo j : Nat) :
    (fieldAt v lo).getLsbD j = (decide (j < 64) && decide (lo ≤ j) && v.getLsbD (j - lo)) := by
  simp only [fieldAt, BitVec.getLsbD_shiftLeft, BitVec.getLsbD_setWidth]
  by_cases h1 : j < 64 <;> by_cases h2 : j < lo
  · simp [h1, h2]
  · have : j - lo < 64 := by omega
    simp [h1, h2, this]
    omega
  · simp [h1]
  · simp [h1]

end Sys2Proof.Machine
end

