-- ==== Sys2Proof/Laws/PerInstr.lean ====
section
/-! SUPPORT. Statements made once for each instruction, over its syntax. -/

namespace Sys2Proof.Laws

/-- Family OpcodeField: the word of a command holds its opcode in bits 3:0 and 0 in the reserved bits
63:15 (spec 30_encoding.md R80, R85). -/
def OpcodeField.Statement (i : Instr) : Prop :=
  i.wellFormed = true → fieldOpc (encode i) = i.opcode ∧ fieldReserved (encode i) = 0

theorem OpcodeField.nop : OpcodeField.Statement .nop := fun _ => by decide

theorem OpcodeField.init : OpcodeField.Statement .init := fun _ => by decide

/-- The NM1 field's bits do not reach the other fields (R80). -/
theorem count_fields {n : Nat} (h : bitCountOk n = true) (opc : Word) (ho : opc = 2 ∨ opc = 4) :
    fieldOpc (opc ||| BitVec.ofNat 64 (n - 1) <<< 4) = opc.setWidth 4 ∧
      fieldReserved (opc ||| BitVec.ofNat 64 (n - 1) <<< 4) = 0 := by
  have hn : n - 1 < 64 := by simp [bitCountOk] at h; omega
  generalize n - 1 = m at hn
  rcases ho with rfl | rfl <;> interval_cases m <;> decide

theorem OpcodeField.absorb (n : Nat) : OpcodeField.Statement (.absorb n) :=
  fun h => count_fields h 2 (.inl rfl)

theorem OpcodeField.final : OpcodeField.Statement .final := fun _ => by decide

theorem OpcodeField.squeeze (n : Nat) : OpcodeField.Statement (.squeeze n) :=
  fun h => count_fields h 4 (.inr rfl)

theorem OpcodeField.permute : OpcodeField.Statement .permute := fun _ => by decide

/-- The K field's bits do not reach the other fields (R80). -/
theorem lane_fields {k : Nat} (h : laneIndexOk k = true) (opc : Word) (ho : opc = 6 ∨ opc = 7) :
    fieldOpc (opc ||| BitVec.ofNat 64 k <<< 10) = opc.setWidth 4 ∧
      fieldReserved (opc ||| BitVec.ofNat 64 k <<< 10) = 0 := by
  have hk : k < 25 := by simpa [laneIndexOk] using h
  rcases ho with rfl | rfl <;> interval_cases k <;> decide

theorem OpcodeField.xorlane (k : Nat) : OpcodeField.Statement (.xorlane k) :=
  fun h => lane_fields h 6 (.inl rfl)

theorem OpcodeField.loadlane (k : Nat) : OpcodeField.Statement (.loadlane k) :=
  fun h => lane_fields h 7 (.inr rfl)

theorem OpcodeField.clear : OpcodeField.Statement .clear := fun _ => by decide

end Sys2Proof.Laws
end

