-- ==== Sys2Proof/Laws/Sponge.lean ====
section
/-! SUPPORT. The bounds the sponge's operations keep: S below 2^B, APOS below RACT, SPOS at most RACT, and
what a legal configuration gives a session. -/

namespace Sys2Proof.Machine

theorem xorLane_lt (w : Width) {k : Nat} (v : BitVec w.laneBits) {S : BitVec 1600} (hk : k < 25)
    (h : S.toNat < 2 ^ w.bits) : (xorLane w k v S).toNat < 2 ^ w.bits := by
  unfold xorLane
  rw [BitVec.toNat_xor]
  exact Nat.xor_lt_two_pow h (placeLane_lt v hk)

theorem loadLane_lt (w : Width) {k : Nat} (v : BitVec w.laneBits) {S : BitVec 1600} (hk : k < 25)
    (h : S.toNat < 2 ^ w.bits) : (loadLane w k v S).toNat < 2 ^ w.bits := by
  unfold loadLane
  rw [BitVec.toNat_or, BitVec.toNat_and]
  exact Nat.or_lt_two_pow (lt_of_le_of_lt Nat.and_le_left h) (placeLane_lt v hk)

/-- Bit i of the word of a bit string. -/
theorem getLsbD_bitsWord (n : Nat) (bits : List Bool) (i : Nat) :
    (bitsWord n bits).getLsbD i = (decide (i < n) && bits.getD i false) := by
  induction bits generalizing i with
  | nil => simp [bitsWord]
  | cons b rest ih =>
    simp only [bitsWord, BitVec.getLsbD_or, BitVec.getLsbD_shiftLeft, ih]
    cases i with
    | zero => by_cases h : 0 < n <;> cases b <;> simp [h]
    | succ i =>
      cases b <;> by_cases h : i + 1 < n <;> simp [h] <;> omega

/-- AbsorbBit keeps S below 2^B and APOS below RACT. -/
theorem absorbBit_bounds {w : Width} {r : BitVec 11} (nr : BitVec 5) {a : Absorber} (v : Bool)
    (hr : r.toNat < w.bits) (hS : a.S.toNat < 2 ^ w.bits) (ha : a.apos.toNat < r.toNat) :
    (absorbBit w r nr a v).S.toNat < 2 ^ w.bits ∧ (absorbBit w r nr a v).apos.toNat < r.toNat := by
  have hx : (if v then a.S ^^^ BitVec.twoPow 1600 a.apos.toNat else a.S).toNat < 2 ^ w.bits := by
    split
    · rw [BitVec.toNat_xor]
      apply Nat.xor_lt_two_pow hS
      rw [BitVec.toNat_twoPow]
      exact lt_of_le_of_lt (Nat.mod_le _ _) (Nat.pow_lt_pow_right (by omega) (by omega))
    · exact hS
  unfold absorbBit
  simp only
  split
  · exact ⟨keccakP_lt _ _ _, by simp; omega⟩
  · rename_i hne
    refine ⟨hx, ?_⟩
    have := r.isLt
    have hne' : (a.apos + 1).toNat ≠ r.toNat := fun h => hne (BitVec.eq_of_toNat_eq h)
    rw [BitVec.toNat_add] at hne' ⊢
    simp at *
    omega

/-- SqueezeBit keeps S below 2^B and SPOS at most RACT. -/
theorem squeezeBit_bounds {w : Width} {r : BitVec 11} (nr : BitVec 5) {q : Squeezer}
    (hS : q.S.toNat < 2 ^ w.bits) (h1 : 1 ≤ r.toNat) (hs : q.spos.toNat ≤ r.toNat) :
    (squeezeBit w r nr q).2.S.toNat < 2 ^ w.bits ∧ (squeezeBit w r nr q).2.spos.toNat ≤ r.toNat := by
  unfold squeezeBit refill
  simp only
  split
  · exact ⟨keccakP_lt _ _ _, by simpa using h1⟩
  · rename_i hne
    have hne' : q.spos.toNat ≠ r.toNat := fun h => hne (BitVec.eq_of_toNat_eq h)
    refine ⟨hS, ?_⟩
    rw [BitVec.toNat_add]
    have := r.isLt
    simp
    omega

/-- The parameters of a session that CFG opens are legal. -/
theorem sessionOf_legal {w : Width} {cfg outlen : Word} {p : Session}
    (h : sessionOf w cfg outlen = some p) :
    1 ≤ p.ract.toNat ∧ p.ract.toNat < w.bits ∧ 1 ≤ p.nract.toNat ∧ p.nract.toNat ≤ w.nrmax ∧
      p.sfxlenact.toNat ≤ 8 := by
  unfold sessionOf at h
  split at h
  · split at h
    · rename_i row hrow hw
      cases h
      subst hw
      unfold facadeRow at hrow
      split at hrow <;> cases hrow <;>
        simp [FacadeRow.session, Width.bits, Width.laneBits, Width.nrmax, Width.log]
    · cases h
  · split at h
    · split at h
      · rename_i hl
        cases h
        simp [rawLegal, legalNr] at hl
        simp only [rawSession]
        tauto
      · cases h
    · cases h

end Sys2Proof.Machine
end

