-- ==== Sys2Proof/Tests/Slice0.lean ====
section
/-! SUPPORT. The model's own tests. Every expected value comes from spec/95_test_vectors.md (the vector is
named) or from the tables of 30_encoding.md, none from the model. The second half shows, for each statement
that has hypotheses, states and operands that meet them. -/

namespace Sys2Proof.Tests

open Sys2Proof Sys2Proof.Machine

/-! ## States the tests start from -/

/-- The register window after `WR CFG, v`, from reset. -/
def withCfg (v : Word) : State := { State.reset with cfg := v }

/-- The SHA3-256 session right after INIT (spec 95, V-INIT row 1). -/
def sha3 : State :=
  { withCfg 0x181 with
    phase := .absorb, ract := 1088, nract := 24, sfxlenact := 2, sfxact := 0x02, remain := 256 }

/-- A SHAKE128 session with OUTLEN 8, right after FINAL (spec 95, P4 line 9). -/
def shake8 : State :=
  { withCfg 0x184 with
    phase := .squeeze, ract := 1344, nract := 24, sfxlenact := 4, sfxact := 0x0F, remain := 8, outlen := 8 }

/-- The same session with all its output read. -/
def shakeDone : State := { shake8 with phase := .done, spos := 8, remain := 0 }

/-- A session of B = 25 with rate 1 and 12 rounds (spec 95, V-SNG-6). -/
def tiny : State :=
  { State.resetAt .b25 0 with
    cfg := 0x100C6, outlen := 8, phase := .absorb, ract := 1, nract := 12, remain := 8 }

/-- A block with INIT of SHA3-256 in flight for `left` more accesses. -/
def busyInit (left : Nat) : State :=
  { withCfg 0x181 with inflight := some ⟨.init, ⟨0, 0x181, 0⟩, left⟩ }

/-- A block that has recorded a PHASE error of ABSORB (spec 95, V-ERR-1). -/
def failed : State := { State.reset with err := .phase, erropc := 2 }

/-- STATUS, POS and CUR after a command. -/
def words (o : Host.Outcome State Fault Refusal) : Option (Word × Word × Word) :=
  (nextState o).map fun t => (t.statusWord, t.posWord, t.curWord)

/-- STATUS after a CMD write of `v`. -/
def statusAfter (v : Word) (s : State) : Option Word := (nextState (issueWord v s)).map State.statusWord

/-- LANE[k] after a command. -/
def laneAfter (k : Fin 25) (o : Host.Outcome State Fault Refusal) : Option Word :=
  (nextState o).map fun t => t.regValue (.lane k)

/-- A state array from its nonzero lanes, for B = 1600. -/
def array (lanes : List (Nat × Word)) : BitVec 1600 :=
  lanes.foldl (fun S p => S ||| placeLane p.2 p.1) 0

/-! ## Well-formed syntax -/

theorem test_wf_absorb : (Instr.absorb 0).wellFormed = false ∧ (Instr.absorb 65).wellFormed = false ∧
    (Instr.absorb 1).wellFormed = true ∧ (Instr.absorb 64).wellFormed = true := by decide

theorem test_wf_squeeze : (Instr.squeeze 0).wellFormed = false ∧ (Instr.squeeze 65).wellFormed = false ∧
    (Instr.squeeze 1).wellFormed = true ∧ (Instr.squeeze 64).wellFormed = true := by decide

theorem test_wf_lanes : (Instr.xorlane 25).wellFormed = false ∧ (Instr.loadlane 25).wellFormed = false ∧
    (Instr.xorlane 24).wellFormed = true ∧ (Instr.loadlane 24).wellFormed = true := by decide

theorem test_wf_lines : (AsmLine.cmd (.absorb 0)).wellFormed = false ∧
    (AsmLine.absorbV 0 65).wellFormed = false ∧ (AsmLine.xorlaneV 25 0).wellFormed = false ∧
    (AsmLine.loadlaneV 25 0).wellFormed = false := by decide

theorem test_wf_setcfg : (AsmLine.setcfg 8 0 0 0 0).wellFormed = false ∧
    (AsmLine.setcfg 0 32 0 0 0).wellFormed = false ∧ (AsmLine.setcfg 0 0 2048 0 0).wellFormed = false ∧
    (AsmLine.setcfg 0 0 0 16 0).wellFormed = false ∧ (AsmLine.setcfg 0 0 0 0 256).wellFormed = false := by
  decide

/-! ## Decoding: the words of spec 95 section 7, written from the encodings of R85 -/

theorem test_decode_nop : decode 0x0 = .ok .nop := by decide
theorem test_decode_init : decode 0x1 = .ok .init := by decide
theorem test_decode_absorb : decode 0x2 = .ok (.absorb 1) ∧ decode 0x172 = .ok (.absorb 24) ∧
    decode 0x3F2 = .ok (.absorb 64) := by decide
theorem test_decode_final : decode 0x3 = .ok .final := by decide
theorem test_decode_squeeze : decode 0x4 = .ok (.squeeze 1) ∧ decode 0xF4 = .ok (.squeeze 16) ∧
    decode 0x3F4 = .ok (.squeeze 64) := by decide
theorem test_decode_permute : decode 0x5 = .ok .permute := by decide
theorem test_decode_xorlane : decode 0x6 = .ok (.xorlane 0) ∧ decode 0x6006 = .ok (.xorlane 24) := by decide
theorem test_decode_loadlane : decode 0x407 = .ok (.loadlane 1) ∧ decode 0x6007 = .ok (.loadlane 24) := by
  decide
theorem test_decode_clear : decode 0x8 = .ok .clear := by decide

theorem test_decode_illegal :
    decode 0x9 = .error .opcode ∧ decode 0xF = .error .opcode ∧ decode 0x13 = .error .unusedNm1 ∧
    decode 0x18 = .error .unusedNm1 ∧ decode 0x3F0 = .error .unusedNm1 ∧ decode 0x400 = .error .unusedK ∧
    decode 0x415 = .error .unusedNm1 ∧ decode 0x6406 = .error .laneIndex ∧
    decode 0x7C07 = .error .laneIndex ∧ decode 0x8000 = .error .reservedBits ∧
    decode 0x8000000000000000 = .error .reservedBits := by decide

/-! ## The commands -/

/-- V-CTL-1. -/
theorem test_nop_keeps_a_session : nextState (exec .nop sha3) = some sha3 := by
  decide +kernel

/-- V-INIT row 1. -/
theorem test_init_sha3 : words (exec .init (withCfg 0x181)) = some (0x2, 0x10000000000, 0x202180440) := by
  decide

/-- V-ERR-17: RAW with r = B − 1. -/
theorem test_init_raw :
    (nextState (exec .init { withCfg 0x63F0186 with outlen := 8 })).map
      (fun t => (t.statusWord, t.curWord)) = some (0x2, 0x18063F) := by decide

/-- P2, ABSORB 24 of "abc". -/
theorem test_absorb_abc :
    laneAfter 0 (exec (.absorb 24) { sha3 with din := 0x636261 }) = some 0x636261 ∧
    words (exec (.absorb 24) { sha3 with din := 0x636261 }) =
      some (0x2, 0x10000000018, 0x202180440) := by
  decide +kernel

/-- V-SNG-7: a 3-bit message. -/
theorem test_absorb_three_bits :
    (nextState (exec (.absorb 3)
      { State.resetAt .b200 0 with phase := .absorb, ract := 40, nract := 18, remain := 16, din := 5 })).map
      (fun t => (t.posWord, t.curWord)) = some (0x1000000003, 0x120028) := by decide

/-- P1: FINAL of the empty SHA3-256 message. -/
theorem test_final_sha3_empty : laneAfter 0 (exec .final sha3) = some 0x66D71EBFF8C6FFA7 := by
  decide +kernel

/-- V-SNG-6: r = 1, where each padding bit is a block of its own. -/
theorem test_final_rate_one :
    words (exec .final tiny) = some (0x4, 0x800000000, 0xC0001) := by decide +kernel

/-- V-SNG-6: SQUEEZE 8 after that FINAL permutes between every two bits. -/
theorem test_squeeze_rate_one :
    ((nextState (exec .final tiny)).bind fun t => nextState (exec (.squeeze 8) t)).map
      (fun t => (t.dout, t.statusWord, t.posWord)) = some (0x61, 0x6, 0x10000) := by decide +kernel

/-- V-ERR-7. -/
theorem test_squeeze_overrun :
    (nextState (exec (.squeeze 16) shake8)).map (fun t => (t.statusWord, t.posWord)) =
      some (0x454, 0x800000000) := by decide

/-- V-P-5: nr = 1 runs the last round alone. -/
theorem test_permute_one_round :
    (nextState (exec .permute (withCfg 0x10))).map State.S =
      some (array [(0, 0x8000000080008008)]) := by decide +kernel

/-- V-P-1, LANE[0]: the reset CFG runs all 24 rounds. -/
theorem test_permute_full : laneAfter 0 (exec .permute State.reset) = some 0xF1258F7940E1DDE7 := by
  decide +kernel

/-- V-ENG-1 and V-ENG-2. -/
theorem test_xorlane_twice :
    laneAfter 7 (exec (.xorlane 7) { State.reset with din := 0x123456789ABCDEF0 }) =
      some 0x123456789ABCDEF0 ∧
    ((nextState (exec (.xorlane 7) { State.reset with din := 0x123456789ABCDEF0 })).bind
      fun t => laneAfter 7 (exec (.xorlane 7) t)) = some 0 := by
  decide +kernel

/-- V-ENG-3: at B = 200 only DIN[7:0] is loaded. -/
theorem test_loadlane_narrow :
    laneAfter 24 (exec (.loadlane 24) { State.resetAt .b200 0 with din := 0x1FF }) = some 0xFF := by
  decide +kernel

/-- V-ENG-8. -/
theorem test_loadlane_in_session : statusAfter 0x407 { sha3 with phase := .squeeze } = some 0x724 := by
  decide

/-- V-ERR-25 and V-CTL-3. -/
theorem test_clear :
    (nextState (exec .clear { shake8 with err := .overrun, erropc := 4, S := 5, dout := 7 })).map
      (fun t => (t.statusWord, t.posWord, t.curWord, t.S, t.dout, t.cfg, t.outlen)) =
      some (0, 0, 0, 0, 0, 0x184, 8) := by
  decide +kernel

/-! ## Errors -/

/-- V-ERR-1 to V-ERR-6. -/
theorem test_phase_errors :
    statusAfter 0x72 State.reset = some 0x220 ∧ statusAfter 0x3 State.reset = some 0x320 ∧
    statusAfter 0x3F4 sha3 = some 0x422 ∧ statusAfter 0x3 { sha3 with phase := .squeeze } = some 0x324 ∧
    statusAfter 0x72 shake8 = some 0x224 ∧ statusAfter 0x4 shakeDone = some 0x426 := by decide

/-- V-ERR-8 to V-ERR-18, and V-ENG-5, V-ENG-6. -/
theorem test_config_errors :
    statusAfter 0x1 (withCfg 0x7) = some 0x130 ∧ statusAfter 0x1 (withCfg 0x184) = some 0x140 ∧
    statusAfter 0x1 { State.resetAt .b200 0 with cfg := 0x181 } = some 0x130 ∧
    statusAfter 0x1 (withCfg 0x186) = some 0x130 ∧ statusAfter 0x1 (withCfg 0x6400186) = some 0x130 ∧
    statusAfter 0x1 (withCfg 0x80006) = some 0x130 ∧ statusAfter 0x1 (withCfg 0x80196) = some 0x130 ∧
    statusAfter 0x1 (withCfg 0x90080186) = some 0x130 ∧
    statusAfter 0x1 (withCfg 0x63F0186) = some 0x140 ∧
    statusAfter 0x5 { State.resetAt .b200 0 with cfg := 0x130 } = some 0x530 ∧
    statusAfter 0x5 (withCfg 0) = some 0x530 := by decide

/-- V-ERR-19 to V-ERR-26. -/
theorem test_illegal_and_sticky :
    statusAfter 0x9 State.reset = some 0x910 ∧ statusAfter 0x13 State.reset = some 0x310 ∧
    statusAfter 0x6406 State.reset = some 0x610 ∧ statusAfter 0x10 sha3 = some 0x012 ∧
    statusAfter 0x8000000000000000 State.reset = some 0x010 ∧ statusAfter 0x1 failed = some 0x220 ∧
    statusAfter 0x18 { shakeDone with err := .phase, erropc := 4 } = some 0x426 ∧
    statusAfter 0x8 failed = some 0x0 := by decide

/-- The BUSY vectors, steps 2 to 6: each access is one step. -/
theorem test_busy_vectors :
    (busyInit 3).statusWord = 0x1 ∧ statusAfter 0x3 (busyInit 3) = some 0x361 ∧
    statusAfter 0x8 { busyInit 3 with err := .busy, erropc := 3 } = some 0x361 ∧
    (nextState (step { busyInit 0 with err := .busy, erropc := 3 })).map State.statusWord = some 0x362 := by
  decide

/-! ## The register window -/

/-- What a read returns. -/
def readAt (off size : Nat) (s : State) : Option Word := (nextState (hostRead off size s)).bind State.reply

/-- V-ACC-1 to V-ACC-5, and narrow and unaligned accesses (R62). -/
theorem test_register_access :
    ((nextState (hostWrite 0x008 8 0xFFFFFFFFFFFFFFFF State.reset)).bind (readAt 0x008 8)) =
      some 0x000000FFF7FF01F7 ∧
    ((nextState (hostWrite 0x010 8 0xFFFFFFFFFFFFFFFF State.reset)).bind (readAt 0x010 8)) =
      some 0x00000000FFFFFFFF ∧
    readAt 0x020 8 sha3 = some 0 ∧ readAt 0x00C 8 sha3 = some 0 ∧ readAt 0x008 4 sha3 = some 0 ∧
    readAt 0x048 8 sha3 = some 0 ∧ readAt 0x1C8 8 sha3 = some 0 := by decide

/-- V-ACC-6 and V-ACC-7. -/
theorem test_read_only_registers :
    nextState (hostWrite 0x028 8 0xFF sha3) = some sha3 ∧
    nextState (hostWrite 0x100 8 1 sha3) = some sha3 := by
  decide +kernel

/-- V-RST: PARAM and CFG of each build. -/
theorem test_reset_values :
    [Width.b25, .b50, .b100, .b200, .b400, .b800, .b1600].map
      (fun w => (paramWord w, (State.resetAt w 0).cfg)) =
      [(0xC00010019, 0xC0), (0xE01020032, 0xE0), (0x1002040064, 0x100), (0x12030800C8, 0x120),
        (0x1404100190, 0x140), (0x1605200320, 0x160), (0x1806400640, 0x180)] := by decide

/-- R5, R101: the seven widths and no other. -/
theorem test_widths : [24, 25, 50, 100, 200, 400, 800, 1600, 3200].map Width.ofBits? =
    [none, some .b25, some .b50, some .b100, some .b200, some .b400, some .b800, some .b1600, none] := by
  decide

/-! ## The permutation's steps -/

/-- The θ, ρ, π, χ or ι image of an array, for B = 1600. -/
def image (f : Lanes 64 → Lanes 64) (S : BitVec 1600) : BitVec 1600 := fromLanes (f (toLanes 64 S))

/-- V-THETA-1 and V-THETA-2. -/
theorem test_theta :
    image theta (array [(0, 1)]) =
      array [(0, 1), (1, 1), (6, 1), (11, 1), (16, 1), (21, 1), (4, 2), (9, 2), (14, 2), (19, 2), (24, 2)] ∧
    image theta (array [(0, 0x8000000000000000)]) =
      array [(0, 0x8000000000000000), (1, 0x8000000000000000), (6, 0x8000000000000000),
        (11, 0x8000000000000000), (16, 0x8000000000000000), (21, 0x8000000000000000), (4, 1), (9, 1),
        (14, 1), (19, 1), (24, 1)] := by decide +kernel

/-- V-RHO-1, V-PI-1 and V-IOTA. -/
theorem test_rho_pi_iota :
    image rho (array [(1, 0x8000000000000000)]) = array [(1, 1)] ∧
    image pi (array [(1, 0x20)]) = array [(10, 0x20)] ∧ image pi (array [(8, 3)]) = array [(21, 3)] ∧
    image (iota (roundConstant 64 6 23)) 0 = array [(0, 0x8000000080008008)] := by decide +kernel

/-- V-CHI-2. -/
theorem test_chi :
    image chi (array [(0, 0xF0F0F0F0F0F0F0F0), (1, 0xFF00FF00FF00FF00), (2, 0xFFFF0000FFFF0000)]) =
      array [(0, 0xF00FF0F0F00FF0F0), (1, 0xFF00FF00FF00FF00), (2, 0xFFFF0000FFFF0000),
        (3, 0xF0F0F0F0F0F0F0F0), (4, 0x0F000F000F000F00)] := by decide +kernel

/-- V-RC-1 and the W = 8 row of V-RC-2. -/
theorem test_round_constants :
    (List.range 32).map (fun t => if rcBit t then 1 else 0) =
      [1, 0, 0, 0, 0, 0, 0, 0, 1, 0, 1, 1, 0, 0, 0, 1, 1, 1, 1, 0, 1, 0, 0, 0, 0, 1, 1, 1, 1, 1, 1, 1] ∧
    (List.range 18).map (roundConstant 8 3) =
      [0x01, 0x82, 0x8A, 0x00, 0x8B, 0x01, 0x81, 0x09, 0x8A, 0x88, 0x09, 0x0A, 0x8B, 0x8B, 0x89, 0x03, 0x02,
        0x80] := by decide +kernel

/-- V-PAD: (r, m) with its j. -/
theorem test_pad_zeros :
    [(1088, 0), (1088, 2), (1088, 1086), (1088, 1087), (1088, 1088), (1344, 4), (1, 0), (1, 5), (2, 0),
        (2, 1), (8, 6), (8, 7)].map (fun p => padZeros p.1 p.2) =
      [1086, 1084, 0, 1087, 1086, 1338, 0, 0, 0, 1, 0, 7] := by decide

/-! ## The assembler and the host's procedure -/

/-- R88: a mnemonic in small letters, a lane written (x,y) in decimal and in hexadecimal, a hexadecimal
value; and operands out of range are refused. -/
theorem test_parse :
    parseLine ['a', 'b', 's', 'o', 'r', 'b', ' ', '2', '4'] = some (.cmd (.absorb 24)) ∧
    parseLine ['X', 'O', 'R', 'L', 'A', 'N', 'E', ' ', '(', '4', ',', '4', ')'] =
      some (.cmd (.xorlane 24)) ∧
    parseLine ['L', 'o', 'a', 'd', 'L', 'a', 'n', 'e', ' ', '(', '0', 'x', '4', ',', '4', ')'] =
      some (.cmd (.loadlane 24)) ∧
    parseLine ['W', 'R', ' ', 'C', 'F', 'G', ',', ' ', '0', 'x', '1', '8', '1'] = some (.wr .cfg 0x181) ∧
    parseLine ['S', 'Q', 'U', 'E', 'E', 'Z', 'E', ' ', '6', '5'] = none ∧
    parseLine ['N', 'O', 'P', ' ', '1'] = none := by decide

/-- R89 with the words of P2 lines 4 and 5. -/
theorem test_assemble_absorbV :
    assemble 0 [.absorbV 0x636261 24] = [.write 0x018 8 0x636261, .write 0x020 8 0x172] := by decide

/-- V-KAT-1 by the host procedure of R160. OUTLEN is 512 there and SHA3-256 ignores it: the loop ends where
REMAIN does. -/
theorem test_facade_sha3_empty :
    facadeProcedure 60 4 1 [] 512 State.reset =
      some [0xa7, 0xff, 0xc6, 0xf8, 0xbf, 0x1e, 0xd7, 0x66, 0x51, 0xc1, 0x47, 0x56, 0xa0, 0x61, 0xd6, 0x62,
        0xf5, 0x80, 0xff, 0x4d, 0xe4, 0x3b, 0x49, 0xfa, 0x82, 0xd8, 0x0a, 0x4b, 0x80, 0xf8, 0x43, 0x4a] := by
  decide +kernel

/-- R145: the output length of a SHA3 function does not depend on OUTLEN; SHAKE's is OUTLEN.D. -/
theorem test_facade_lengths :
    (facadeRow 1).map (fun row => (row.length 512, row.length 0)) = some (256, 256) ∧
    (facadeRow 4).map (fun row => row.length 512) = some 512 := by decide

/-- R67: the digest bytes of P1's first DOUT. -/
theorem test_output_bytes :
    outputBytes (wordBits (0x66D71EBFF8C6FFA7 : Word) 64) =
      [0xa7, 0xff, 0xc6, 0xf8, 0xbf, 0x1e, 0xd7, 0x66] ∧
    outputBytes (wordBits (0xC7F : Word) 12) = [0x7f, 0x0c] := by decide

/-! ## Witnesses: states and operands that meet the hypotheses of each statement -/

/-- A block whose host is about to write `v` to CMD. -/
def writing (v : Word) (s : State) : State := { s with queue := [.write 0x020 8 v] }

/-- The invariant's clauses over a state with no command in flight. -/
theorem sha3_inv : sha3.Inv where
  array_width := by decide +kernel
  cfg_reserved := by decide
  outlen_reserved := by decide
  idle := by decide
  session := by decide
  absorb := by decide
  squeeze := by decide
  done := by decide
  no_error := by decide
  flight := by intro f h; cases h

theorem tiny_inv : tiny.Inv where
  array_width := by decide +kernel
  cfg_reserved := by decide
  outlen_reserved := by decide
  idle := by decide
  session := by decide
  absorb := by decide
  squeeze := by decide
  done := by decide
  no_error := by decide
  flight := by intro f h; cases h

theorem reset_inv : State.reset.Inv where
  array_width := by decide +kernel
  cfg_reserved := by decide
  outlen_reserved := by decide
  idle := by decide
  session := by decide
  absorb := by decide
  squeeze := by decide
  done := by decide
  no_error := by decide
  flight := by intro f h; cases h

theorem test_witness_OneLegalEncodingPerCommand :
    (decode 0x3F2 = .ok (.absorb 64) ∧ (0x3F2 : Word).extractLsb' 4 6 ≠ 0) ∧
    (decode 0x14 = .ok (.squeeze 2) ∧ (0x14 : Word).extractLsb' 4 6 ≠ 0) ∧
    (decode 0x6006 = .ok (.xorlane 24) ∧ (0x6006 : Word).extractLsb' 10 5 ≠ 0) ∧
    (decode 0x407 = .ok (.loadlane 1) ∧ (0x407 : Word).extractLsb' 10 5 ≠ 0) := by decide

theorem test_witness_IllegalWordsExactlyAndTheirRecord :
    (∃ e, decode 0x9 = .error e) ∧ (∃ e, decode 0x8000 = .error e) ∧ (∃ e, decode 0x13 = .error e) ∧
    (∃ e, decode 0x400 = .error e) ∧ (∃ e, decode 0x6406 = .error e) ∧ State.reset.Ready :=
  ⟨⟨.opcode, by decide⟩, ⟨.reservedBits, by decide⟩, ⟨.unusedNm1, by decide⟩, ⟨.unusedK, by decide⟩,
    ⟨.laneIndex, by decide⟩, by decide⟩

theorem test_witness_StepRunsTheDecodedCommand :
    ((writing 0x72 State.reset).queue = .write ((writing 0x72 State.reset).windowBase + 0x020) 8 0x72 :: [] ∧
      decode 0x72 = .ok (.absorb 8) ∧ (writing 0x72 State.reset).inflight = none) ∧
    ((writing 0x3 (busyInit 1)).queue = .write ((writing 0x3 (busyInit 1)).windowBase + 0x020) 8 0x3 :: [] ∧
      decode 0x3 = .ok .final ∧
      (writing 0x3 (busyInit 1)).inflight = some ⟨.init, ⟨0, 0x181, 0⟩, 0 + 1⟩) := by decide

theorem test_witness_FetchWordIsRunNext :
    State.reset.inflight = none ∧ decodeTableWord 64 0x72 = some (.absorb 8) := by decide

theorem test_witness_NopCompletesAndChangesNothing : sha3.Ready ∧ sha3.AtOnce := by decide

theorem test_witness_InitOpensFacadeSession :
    ∀ row ∈ [(0, 1152, 2, 0x02, 224), (1, 1088, 2, 0x02, 256), (2, 832, 2, 0x02, 384),
        (3, 576, 2, 0x02, 512), (4, 1344, 4, 0x0F, 0), (5, 1088, 4, 0x0F, 0)],
      let s := { withCfg (BitVec.ofNat 64 row.1 ||| 0x180) with outlen := 1 }
      let dfix := row.2.2.2.2
      let d := if dfix = 0 then s.outlen.extractLsb' 0 32 else BitVec.ofNat 32 dfix
      s.Ready ∧ s.AtOnce ∧ s.width = .b1600 ∧ (s.cfg.extractLsb' 0 3).toNat = row.1 ∧ d ≠ 0 := by decide

/-- RATE 1599, NR 24, SFXLEN 8; and RATE 1, NR 1, SFXLEN 0 at B = 25. -/
theorem test_witness_InitOpensRawSession :
    ∀ s ∈ [{ withCfg 0x8563F0186 with outlen := 8 },
        { State.resetAt .b25 0 with cfg := 0x10016, outlen := 0xFFFFFFFF }],
      s.Ready ∧ s.AtOnce ∧ s.cfg.extractLsb' 0 3 = 6 ∧
      1 ≤ (s.cfg.extractLsb' 16 11).toNat ∧ (s.cfg.extractLsb' 16 11).toNat < s.width.bits ∧
      1 ≤ (s.cfg.extractLsb' 4 5).toNat ∧ (s.cfg.extractLsb' 4 5).toNat ≤ s.width.nrmax ∧
      (s.cfg.extractLsb' 28 4).toNat ≤ 8 ∧ s.outlen.extractLsb' 0 32 ≠ 0 := by decide

theorem test_witness_AbsorbCompletes : sha3.Ready ∧ sha3.AtOnce ∧ sha3.phase = .absorb := by decide

theorem test_witness_FinalCompletesWithThePadding :
    (sha3.Inv ∧ sha3.Ready ∧ sha3.AtOnce ∧ sha3.phase = .absorb) ∧
    (tiny.Inv ∧ tiny.Ready ∧ tiny.AtOnce ∧ tiny.phase = .absorb) :=
  ⟨⟨sha3_inv, by decide, by decide, by decide⟩, ⟨tiny_inv, by decide, by decide, by decide⟩⟩

/-- n = 1 below REMAIN, and n = REMAIN. -/
theorem test_witness_SqueezeCompletes :
    shake8.Ready ∧ shake8.AtOnce ∧ shake8.phase = .squeeze ∧ 1 ≤ 64 ∧ 1 < shake8.remain.toNat ∧
    8 = shake8.remain.toNat ∧ 64 ≤ { shake8 with remain := 65 }.remain.toNat := by decide

theorem test_witness_PermuteCompletes :
    ∀ s ∈ [withCfg 0x10, State.reset], s.Ready ∧ s.AtOnce ∧ s.phase = .idle ∧
      1 ≤ (s.cfg.extractLsb' 4 5).toNat ∧ (s.cfg.extractLsb' 4 5).toNat ≤ s.width.nrmax := by decide

theorem test_witness_XorlaneFlipsOneLane :
    (0 < 25 ∧ 24 < 25) ∧ State.reset.Ready ∧ State.reset.AtOnce ∧ State.reset.phase = .idle := by decide

theorem test_witness_LoadlaneOverwritesOneLane :
    (0 < 25 ∧ 24 < 25) ∧ State.reset.Ready ∧ State.reset.AtOnce ∧ State.reset.phase = .idle := by decide

theorem test_witness_ClearCompletesInEveryPhase :
    ∀ s ∈ [sha3, shake8, shakeDone, failed], s.inflight = none ∧ s.AtOnce := by decide

theorem test_witness_BusyWriteIsDropped :
    ((busyInit 1).inflight ≠ none ∧ (busyInit 1).err = .none) ∧
    { busyInit 1 with err := .busy }.err ≠ .none := by decide

theorem test_witness_StickyErrorIgnoresAllButClear :
    failed.inflight = none ∧ failed.err ≠ .none ∧ (0x18 : Word) ≠ 0x0000000000000008 := by decide

theorem test_witness_PhaseTableDecidesPhaseError :
    (State.reset.Ready ∧ State.reset.phase ∉ legalPhases (.absorb 8)) ∧
    (sha3.Ready ∧ sha3.phase ∈ legalPhases (.absorb 8) ∧
      (nextState (exec (.absorb 8) sha3)).isSome = true) := by decide

/-- A configuration INIT rejects, one it accepts, and PERMUTE with NR = 0, 25 and 24. -/
theorem test_witness_ConfigErrorExactly :
    (∀ s ∈ [withCfg 0x7, withCfg 0x181, withCfg 0, withCfg 0x190, State.reset],
      s.Ready ∧ s.phase = .idle) ∧
    nextState (exec .init (withCfg 0x7)) = some { withCfg 0x7 with err := .config, erropc := 1 } := by
  decide +kernel

theorem test_witness_OutlenErrorExactly :
    (withCfg 0x184).Ready ∧
    nextState (exec .init (withCfg 0x184)) = some { withCfg 0x184 with err := .outlen, erropc := 1 } := by
  decide +kernel

theorem test_witness_OverrunErrorExactly :
    (shake8.Ready ∧ shake8.phase = .squeeze ∧ shake8.remain.toNat < 9) ∧
    (shake8.AtOnce ∧ 8 = shake8.remain.toNat) ∧ (shakeDone.Ready ∧ shakeDone.phase = .done) := by decide

theorem test_witness_AcceptedCommandGoesIntoFlight :
    ∀ s ∈ [{ State.reset with latency := [1] }], s.inflight = none ∧ s.err = .none ∧
      commandError .permute ⟨s.din, s.cfg, s.outlen⟩ s = .none ∧ s.latency = (0 + 1) :: [] := by decide

theorem test_witness_AcceptedClearGoesIntoFlight :
    ∀ s ∈ [{ failed with latency := [2] }], s.inflight = none ∧ (s.err = .none ∨ Instr.clear = .clear) ∧
      commandError .clear ⟨s.din, s.cfg, s.outlen⟩ s = .none ∧ s.latency = (1 + 1) :: [] := by decide

theorem test_witness_LaterOperandWritesDoNotReachTheCommand :
    (busyInit 0).inflight = some ⟨.init, ⟨0, 0x181, 0⟩, 0⟩ ∧
    step (busyInit 0) = .next (complete ⟨.init, ⟨0, 0x181, 0⟩, 0⟩ (busyInit 0)) := ⟨by decide, rfl⟩

/-- Latency used up with a transaction still to come, and latency left with none to come; one read, at the
last byte of the window, before the rest; and no transaction. -/
theorem test_witness_LatencyDoesNotChangeTheResult :
    (∀ s ∈ [writing 0x3 (busyInit 0), busyInit 7],
      ∃ f, s.inflight = some f ∧ (f.left = 0 ∨ s.queue = [])) ∧
    (State.reset.inflight = none ∧ State.reset.err = .none ∧
      commandError .permute ⟨State.reset.din, State.reset.cfg, State.reset.outlen⟩ State.reset = .none ∧
      [((0x1FF : Nat), (8 : Nat))].length = 0 + 1 ∧
      (∀ r ∈ [((0x1FF : Nat), (8 : Nat))],
        State.reset.windowBase ≤ r.1 ∧ r.1 < State.reset.windowBase + 0x200) ∧
      State.reset.queue = []) ∧
    exec .permute { State.reset with latency := [0 + 1] } =
      .next ({ State.reset with latency := [0 + 1] }.launch .permute 1) := by
  refine ⟨?_, by decide, rfl⟩
  simp only [List.forall_mem_cons]
  exact ⟨⟨_, rfl, .inl rfl⟩, ⟨_, rfl, .inr rfl⟩, by simp⟩

/-- Accesses at the first and the last byte of the window, and at neither (a reset). -/
theorem test_witness_BusyEndsWithinLatency :
    ∀ s ∈ [{ busyInit 5 with queue := [.read 0x000 8, .write 0x1FF 1 0, .poll, .reset] }],
      s.inflight = some ⟨.init, ⟨0, 0x181, 0⟩, 5⟩ ∧
      (s.windowBase ≤ 0x000 ∧ 0x1FF < s.windowBase + 0x200) := by decide

theorem test_witness_PosAndCurReadTheirFields : sha3.inflight = none := by decide

theorem test_witness_LaneWindowReadsTheState : sha3.inflight = none := by decide

/-- A session with DOUT = 7: INIT and CLEAR accepted at once, CLEAR also with an error recorded, and both
completing from flight. -/
theorem test_witness_DoutIsWrittenBySqueezeInitAndClear :
    (∀ s ∈ [{ sha3 with dout := 7 }], s.inflight = none ∧ s.err = .none ∧ s.AtOnce ∧
      commandError .init ⟨s.din, s.cfg, s.outlen⟩ s = .none ∧
      commandError .clear ⟨s.din, s.cfg, s.outlen⟩ s = .none) ∧
    (failed.inflight = none ∧ failed.err ≠ .none ∧ failed.AtOnce ∧
      commandError .clear ⟨failed.din, failed.cfg, failed.outlen⟩ failed = .none) ∧
    ((busyInit 0).inflight = some ⟨.init, ⟨0, 0x181, 0⟩, 0⟩ ∧
      commandError .init ⟨0, 0x181, 0⟩ (busyInit 0) = .none ∧
      commandError .clear ⟨0, 0x181, 0⟩ { busyInit 0 with inflight := some ⟨.clear, ⟨0, 0x181, 0⟩, 0⟩ } =
        .none) ∧
    exec .nop sha3 = .next sha3.popLatency := ⟨by decide, by decide, by decide, rfl⟩

theorem test_witness_UnsupportedAccessIsIgnored :
    (0x000 < 0x200 ∧ (4 ≠ 8 ∨ 0x000 % 8 ≠ 0)) ∧ (0x1FF < 0x200 ∧ (8 ≠ 8 ∨ 0x1FF % 8 ≠ 0)) := by decide

theorem test_witness_ReservedLocationsReadZero :
    ∀ off ∈ [0x048, 0x0FF, 0x1C8, 0x1FF],
      0x048 ≤ off ∧ off < 0x100 ∨ 0x1C8 ≤ off ∧ off < 0x200 := by decide

theorem test_witness_OnlyCmdWritesHaveSideEffects :
    hostRead 0x028 8 sha3 = .next (sha3.answer sha3.statusWord) ∧
    hostWrite 0x1F8 8 5 sha3 = .next sha3 ∧ hostWrite 0x020 4 5 sha3 = .next sha3 ∧
    ∀ off ∈ [0x008, 0x010, 0x018, 0x020], 0x1F8 ≠ sha3.windowBase + off :=
  ⟨rfl, rfl, rfl, by decide⟩

theorem test_witness_ReadsWhileBusy :
    (busyInit 1).inflight ≠ none ∧
    (∀ off ∈ [0x100, 0x1C0], off % 8 = 0 ∧ 0x100 ≤ off ∧ off ≤ 0x1C0) ∧
    (∀ off ∈ [0x048, 0x0F8, 0x1C8, 0x1F8],
      off % 8 = 0 ∧ (0x048 ≤ off ∧ off ≤ 0x0F8 ∨ 0x1C8 ≤ off ∧ off ≤ 0x1F8)) := by decide

theorem test_witness_SetcfgFillsTheCfgFields :
    (AsmLine.setcfg 7 31 2047 15 255).wellFormed = true ∧ (AsmLine.setcfg 0 0 0 0 0).wellFormed = true := by
  decide

/-- The all-ones arrays of the narrowest and the widest build. -/
theorem test_witness_StateViewsRoundTrip :
    (BitVec.ofNat 1600 (2 ^ 25 - 1)).toNat < 2 ^ Width.b25.bits ∧
    (BitVec.allOnes 1600).toNat < 2 ^ Width.b1600.bits ∧ (4 < 5 ∧ 63 < Width.b1600.laneBits) := by
  decide +kernel

theorem test_witness_LaneStepsAreTheBitSteps :
    (BitVec.ofNat 1600 (2 ^ 25 - 1)).toNat < 2 ^ Width.b25.bits ∧
    (BitVec.allOnes 1600).toNat < 2 ^ Width.b1600.bits := by decide +kernel

theorem test_witness_EngineComputesKeccakP :
    ((BitVec.ofNat 1600 (2 ^ 25 - 1)).toNat < 2 ^ Width.b25.bits ∧ 1 ≤ 1 ∧ 1 ≤ Width.b25.nrmax) ∧
    ((BitVec.allOnes 1600).toNat < 2 ^ Width.b1600.bits ∧ 1 ≤ 24 ∧ 24 ≤ Width.b1600.nrmax) := by
  decide +kernel

/-- In the middle of a block, at its end, and r = 1. -/
theorem test_witness_AbsorbBitRule :
    (∀ p ∈ [((0 : BitVec 11), (1088 : BitVec 11)), (1087, 1088), (0, 1)],
      p.1.toNat < p.2.toNat ∧ p.2.toNat < Width.b1600.bits) ∧
    ((0 : BitVec 11).toNat + 1 ≠ (1088 : BitVec 11).toNat ∧
      (1087 : BitVec 11).toNat + 1 = (1088 : BitVec 11).toNat) := by
  simp [Width.bits, Width.laneBits]

theorem test_witness_SqueezeBitRule :
    (∀ p ∈ [((0 : BitVec 11), (1088 : BitVec 11)), (1088, 1088), (1, 1)],
      p.1.toNat ≤ p.2.toNat ∧ 1 ≤ p.2.toNat ∧ p.2.toNat < Width.b1600.bits) ∧
    (0 : BitVec 11) ≠ 1088 := by
  simp [Width.bits, Width.laneBits]

/-- r = 1 (m any), m = r − 2, m = r − 1, and m = 0. -/
theorem test_witness_PadIsTenStarOne :
    1 ≤ 1 ∧ (2 ≤ 1088 ∧ 1086 % 1088 = 1088 - 2) ∧ 1087 % 1088 = 1088 - 1 ∧ 5 % 1 = 1 - 1 ∧ 2 ≤ 2 := by
  decide

theorem test_witness_AbsorptionEqualsTheBlockLoop :
    ∀ r ∈ [(1 : BitVec 11), 1599], 1 ≤ r.toNat ∧ r.toNat < Width.b1600.bits := by decide

theorem test_witness_SqueezingReadsTheStream :
    (∀ r ∈ [(1 : BitVec 11), 24], 1 ≤ r.toNat ∧ r.toNat < Width.b25.bits) ∧ 128 ≤ 512 := by decide

/-- An empty message, and one in two pieces; the whole output in pieces. -/
theorem test_witness_SessionComputesTheSponge :
    (sha3.Inv ∧ tiny.Inv) ∧
    (∀ s ∈ [sha3, tiny], s.Ready ∧ s.latency = [] ∧ s.phase = .absorb ∧ s.S = 0 ∧ s.apos = 0) ∧
    (∀ c ∈ [((0x636261 : Word), 24), (5, 64), (1, 1)], 1 ≤ c.2 ∧ c.2 ≤ 64) ∧
    (∀ n ∈ [64, 1], 1 ≤ n ∧ n ≤ 64) ∧ [64, 64, 64, 64].sum ≤ sha3.remain.toNat ∧
    [7, 1].sum ≤ tiny.remain.toNat := ⟨⟨sha3_inv, tiny_inv⟩, by decide +kernel⟩

theorem test_witness_EveryStepKeepsTheInvariant :
    State.reset.Inv ∧ sha3.Inv ∧ step sha3 = .next sha3 := ⟨reset_inv, sha3_inv, rfl⟩

/-- Reset itself, and the session INIT of SHA3-256 opens from it. -/
theorem test_witness_ReachableStatesMeetTheClauses :
    Host.Core.run Sys2Proof.core 0 { State.resetAt .b1600 0 with queue := [], latency := [] } =
      .next State.reset ∧ State.reset.busy = false ∧
    (∃ s, Host.Core.run Sys2Proof.core 2
      { State.resetAt .b1600 0 with
        queue := [.write 0x008 8 0x181, .write 0x020 8 0x1], latency := [] } = .next s ∧
      s.busy = false ∧ s.phase = .absorb) := ⟨rfl, rfl, sha3, rfl, rfl, rfl⟩

/-- A command in flight, a CMD write and a reset that each change S. -/
theorem test_witness_OnlyCommandsAndResetChangeTheStateArray :
    (∀ s ∈ [{ State.reset with din := 1, inflight := some ⟨.xorlane 0, ⟨1, 0, 0⟩, 0⟩ },
        writing 0x8 { State.reset with inflight := some ⟨.xorlane 0, ⟨1, 0, 0⟩, 0⟩ },
        writing 0x6 { State.reset with din := 1 }],
      (nextState (step s)).map State.S = some 1 ∧ s.S = 0) ∧
    (nextState (step { State.reset with S := 1, queue := [.reset] })).map State.S = some 0 := by
  decide +kernel

/-- An ignored command, CLEAR by a CMD write, CLEAR in flight, and a reset. -/
theorem test_witness_FirstErrorStaysUntilClearOrReset :
    (∀ s ∈ [writing 0x1 failed, writing 0x8 failed,
        { failed with inflight := some ⟨.clear, ⟨0, 0, 0⟩, 0⟩ }, { failed with queue := [.reset] }],
      (nextState (step s)).isSome = true ∧ s.err ≠ .none) ∧
    (nextState (step (writing 0x1 failed))).map State.err = some .phase ∧
    (nextState (step (writing 0x8 failed))).map State.err = some .none := by decide

theorem test_witness_OnlyTheListedCommandsMovePhase :
    (nextState (exec .init (withCfg 0x181))).map State.phase = some .absorb ∧
    (nextState (exec .final tiny)).map State.phase = some .squeeze ∧
    (nextState (exec (.squeeze 8) shake8)).map State.phase = some .done ∧
    (nextState (exec .clear sha3)).map State.phase = some .idle := by decide +kernel

theorem test_witness_SessionParametersAreLatched : exec .nop sha3 = .next sha3.popLatency := rfl

theorem test_witness_BuildParametersAreConstant : step sha3 = .next sha3 := rfl

theorem test_witness_ResetSetsTheTable :
    ∀ s ∈ [{ sha3 with queue := [.reset] }, { busyInit 1 with queue := [.reset] }],
      s.queue = .reset :: [] ∧ s.inflight.map (fun f => f.left) ≠ some 0 := by decide

theorem test_witness_IdleBlockHoldsItsState : sha3.inflight = none ∧ sha3.queue = [] := by decide

end Sys2Proof.Tests
end

section
/-! PROOFS. The build parameters: no operation changes the width or the window base (spec 00_scope.md R5,
20_memory.md R60). -/

namespace Sys2Proof.Machine

/-! ## What an ILLEGAL word and a POLL can do -/

/-- An ILLEGAL word changes nothing or is rejected (R202, R207, R208). -/
theorem illegalWord_cases (v : Word) (s : State) :
    s.illegalWord v = s ∨ ∃ e, s.illegalWord v = s.reject e (fieldOpc v) := by
  unfold State.illegalWord
  split
  · exact .inr ⟨.busy, rfl⟩
  · split
    · exact .inl rfl
    · exact .inr ⟨.illegal, rfl⟩

/-- A POLL reads STATUS, and while BUSY = 1 it puts itself back (R71, R88). -/
theorem hostPoll_cases (s : State) :
    hostPoll s = s.answer s.statusWord ∨
    hostPoll s = { s.answer s.statusWord with queue := .poll :: s.queue } := by
  unfold hostPoll
  split
  · exact .inr rfl
  · exact .inl rfl

/-! ## The build parameters -/

/-- `t` is a state of the same block as `s`: the same width, at the same place of the address space. -/
def State.SameBuild (s t : State) : Prop := t.width = s.width ∧ t.windowBase = s.windowBase

theorem effectOf_sameBuild (i : Instr) (o : Operands) (s : State) : s.SameBuild (effectOf i o s) := by
  obtain ⟨hwidth, hbase, -⟩ := effectOf_keeps i o s
  exact ⟨hwidth, hbase⟩

theorem complete_sameBuild (f : InFlight) (s : State) : s.SameBuild (complete f s) :=
  effectOf_sameBuild f.instr f.ops { s with inflight := none }

theorem reject_sameBuild (e : ErrCode) (opc : BitVec 4) (s : State) : s.SameBuild (s.reject e opc) :=
  ⟨reject_width s e opc, reject_windowBase s e opc⟩

theorem illegalWord_sameBuild (v : Word) (s : State) : s.SameBuild (s.illegalWord v) := by
  rcases illegalWord_cases v s with h | ⟨e, h⟩ <;> rw [h]
  · exact ⟨rfl, rfl⟩
  · exact reject_sameBuild e (fieldOpc v) s

theorem hostPoll_sameBuild (s : State) : s.SameBuild (hostPoll s) := by
  rcases hostPoll_cases s with h | h <;> rw [h] <;> exact ⟨rfl, rfl⟩

theorem exec_sameBuild {i : Instr} {s t : State} (h : exec i s = .next t) : s.SameBuild t := by
  rcases exec_cases i s with
    ⟨-, hx⟩ | ⟨-, -, -, hx⟩ | ⟨-, -, -, hx⟩ | ⟨-, -, -, -, hx⟩ | ⟨-, -, -, -, hx⟩ <;>
    cases hx.symm.trans h
  · exact reject_sameBuild .busy i.opcode s
  · exact ⟨rfl, rfl⟩
  · exact reject_sameBuild (commandError i s.operands s) i.opcode s
  · exact ⟨launch_width s i s.nextLatency, launch_windowBase s i s.nextLatency⟩
  · exact effectOf_sameBuild i s.operands s.popLatency

theorem issueWord_sameBuild {v : Word} {s t : State} (h : issueWord v s = .next t) : s.SameBuild t := by
  cases hd : decode v with
  | ok i => exact exec_sameBuild ((issueWord_of_decode hd s).symm.trans h)
  | error e =>
    cases (issueWord_of_illegal hd s).symm.trans h
    exact illegalWord_sameBuild v s

theorem hostRead_sameBuild {addr size : Nat} {s t : State} (h : hostRead addr size s = .next t) :
    s.SameBuild t := by
  rcases hostRead_cases addr size s with hr | ⟨v, hr⟩ | ⟨-, hr⟩ <;> cases hr.symm.trans h
  · exact ⟨answer_width s v, answer_windowBase s v⟩
  · exact ⟨answerFree_width s, answerFree_windowBase s⟩

theorem hostWrite_sameBuild {addr size : Nat} {v : Word} {s t : State}
    (h : hostWrite addr size v s = .next t) : s.SameBuild t := by
  rcases hostWrite_cases addr size v s with
    hw | hw | ⟨-, -, hw⟩ | ⟨-, -, hw⟩ | ⟨-, -, hw⟩ | ⟨-, -, hw⟩ <;> have hs := hw.symm.trans h
  · cases hs
  iterate 4 · cases hs; exact ⟨rfl, rfl⟩
  · exact issueWord_sameBuild hs

theorem hostEvent_sameBuild {e : HostEvent} {s t : State} (h : hostEvent e s = .next t) :
    s.SameBuild t := by
  cases e with
  | write addr size v => exact hostWrite_sameBuild h
  | read addr size => exact hostRead_sameBuild h
  | poll => cases h; exact hostPoll_sameBuild s
  | reset => cases h; exact ⟨afterReset_width s, afterReset_windowBase s⟩

theorem step_sameBuild {s t : State} (h : step s = .next t) : s.SameBuild t := by
  rcases step_cases s with ⟨f, -, -, hs⟩ | ⟨-, -, hs⟩ | ⟨e, rest, -, -, hs⟩
  · cases hs.symm.trans h
    exact complete_sameBuild f s
  · cases hs.symm.trans h
    exact ⟨rfl, rfl⟩
  · have htaken : State.SameBuild { s.tick with queue := rest } t := hostEvent_sameBuild (hs.symm.trans h)
    exact htaken

/-- Settles O57: completing a command and every transaction, the reset included, keep both. -/
theorem buildParametersAreConstant : Obligations.BuildParametersAreConstant :=
  fun _ _ h => step_sameBuild h

end Sys2Proof.Machine
end

section
/-! PROOFS. What a command and a transaction can do to the session: S, PHASE, the positions, the session
parameters and DOUT (spec 10_state.md R20 to R31, R42). -/

namespace Sys2Proof.Machine

/-! ## The session's registers -/

/-- The part of the state that only a command's completion and a reset write: the state array and the
session registers (R20, R27 to R31, R42), with the width they are read at. -/
structure SpongeRegs where
  width : Width
  S : BitVec 1600
  phase : Phase
  apos : BitVec 11
  spos : BitVec 11
  remain : BitVec 32
  ract : BitVec 11
  nract : BitVec 5
  sfxlenact : BitVec 4
  sfxact : BitVec 8
  dout : Word

def State.spongeRegs (s : State) : SpongeRegs where
  width := s.width
  S := s.S
  phase := s.phase
  apos := s.apos
  spos := s.spos
  remain := s.remain
  ract := s.ract
  nract := s.nract
  sfxlenact := s.sfxlenact
  sfxact := s.sfxact
  dout := s.dout

@[simp] theorem reject_spongeRegs (s : State) (e : ErrCode) (opc : BitVec 4) :
    (s.reject e opc).spongeRegs = s.spongeRegs := by simp [State.spongeRegs]

theorem illegalWord_spongeRegs (v : Word) (s : State) : (s.illegalWord v).spongeRegs = s.spongeRegs := by
  rcases illegalWord_cases v s with h | ⟨e, h⟩ <;> simp [h]

theorem hostPoll_spongeRegs (s : State) : (hostPoll s).spongeRegs = s.spongeRegs := by
  rcases hostPoll_cases s with h | h <;> rw [h] <;> rfl

theorem hostRead_spongeRegs {addr size : Nat} {s t : State} (h : hostRead addr size s = .next t) :
    t.spongeRegs = s.spongeRegs := by
  rcases hostRead_cases addr size s with hr | ⟨v, hr⟩ | ⟨-, hr⟩ <;> cases hr.symm.trans h <;> rfl

/-! ## Which operations write them -/

/-- A CMD write of the command `i` that completes at once leaves `t` (R200, R233). -/
structure CompletesAtOnce (i : Instr) (s t : State) : Prop where
  idle : s.inflight = none
  accepted : commandError i s.operands s = .none
  atOnce : s.AtOnce
  result : t = effectOf i s.operands s.popLatency

/-- A CMD write of a legal command writes the session's registers only if it completes at once. -/
theorem exec_spongeRegs {i : Instr} {s t : State} (h : exec i s = .next t) :
    t.spongeRegs = s.spongeRegs ∨ CompletesAtOnce i s t := by
  rcases exec_cases i s with
    ⟨-, hx⟩ | ⟨-, -, -, hx⟩ | ⟨-, -, -, hx⟩ | ⟨-, -, -, -, hx⟩ | ⟨hidle, -, hacc, hlat, hx⟩ <;>
    cases hx.symm.trans h
  · exact .inl (reject_spongeRegs ..)
  · exact .inl rfl
  · exact .inl (reject_spongeRegs ..)
  · exact .inl rfl
  · exact .inr ⟨hidle, hacc, hlat, rfl⟩

/-- A transaction writes the session's registers only if it is a reset or a CMD write that completes at
once. -/
theorem hostEvent_spongeRegs {e : HostEvent} {s t : State} (h : hostEvent e s = .next t) :
    t.spongeRegs = s.spongeRegs ∨ e = .reset ∨
      ∃ v i, e = .write (s.windowBase + 0x020) 8 v ∧ decode v = .ok i ∧ CompletesAtOnce i s t := by
  cases e with
  | read addr size => exact .inl (hostRead_spongeRegs h)
  | poll => cases h; exact .inl (hostPoll_spongeRegs s)
  | reset => exact .inr (.inl rfl)
  | write addr size v =>
    rcases hostWrite_cases addr size v s with
      hw | hw | ⟨-, -, hw⟩ | ⟨-, -, hw⟩ | ⟨-, -, hw⟩ | ⟨rfl, rfl, hw⟩ <;> have hs := hw.symm.trans h
    · cases hs
    iterate 4 · cases hs; exact .inl rfl
    · cases hd : decode v with
      | error e =>
        cases (issueWord_of_illegal hd s).symm.trans hs
        exact .inl (illegalWord_spongeRegs v s)
      | ok i =>
        rcases exec_spongeRegs ((issueWord_of_decode hd s).symm.trans hs) with hkeep | hdone
        · exact .inl hkeep
        · exact .inr (.inr ⟨v, i, rfl, hd, hdone⟩)

/-! ## An accepted INIT -/

/-- An INIT that passes its checks opens a session with d > 0 (R155, R204, R205). -/
theorem session_of_init_accepted {o : Operands} {s : State} (h : commandError .init o s = .none) :
    ∃ p, sessionOf s.width o.cfg o.outlen = some p ∧ p.d ≠ 0 := by
  have hinit : initError o s = .none := by simpa [commandError, phaseAllows] using h
  unfold initError at hinit
  split at hinit
  · cases hinit
  · rename_i p hp
    exact ⟨p, hp, fun hd => by simp [hd] at hinit⟩

theorem initEffect_spongeRegs {o : Operands} {s : State} {p : Session}
    (h : sessionOf s.width o.cfg o.outlen = some p) :
    (initEffect o s).spongeRegs =
      ⟨s.width, 0, .absorb, 0, 0, p.d, p.ract, p.nract, p.sfxlenact, p.sfxact, 0⟩ := by
  unfold initEffect
  rw [h]
  rfl

end Sys2Proof.Machine
end

section
/-! PROOFS. The invariant of every reachable state (spec 10_state.md R50): it holds at reset, and the
completion of a command and every transaction keep it. -/

namespace Sys2Proof.Machine

/-! ## The clauses about the session -/

/-- The clauses of `State.Inv` that speak of the session's registers only. -/
structure SpongeRegs.Ok (r : SpongeRegs) : Prop where
  array_width : r.S.toNat < 2 ^ r.width.bits
  idle : r.phase = .idle →
    r.apos = 0 ∧ r.spos = 0 ∧ r.remain = 0 ∧ r.ract = 0 ∧ r.nract = 0 ∧ r.sfxlenact = 0 ∧ r.sfxact = 0
  session : r.phase ≠ .idle →
    1 ≤ r.ract.toNat ∧ r.ract.toNat < r.width.bits ∧ 1 ≤ r.nract.toNat ∧
      r.nract.toNat ≤ r.width.nrmax ∧ r.sfxlenact.toNat ≤ 8
  absorb : r.phase = .absorb → r.apos.toNat < r.ract.toNat ∧ r.spos = 0 ∧ 1 ≤ r.remain.toNat
  squeeze : r.phase = .squeeze → r.apos = 0 ∧ r.spos.toNat ≤ r.ract.toNat ∧ 1 ≤ r.remain.toNat
  done : r.phase = .done → r.apos = 0 ∧ r.spos.toNat ≤ r.ract.toNat ∧ r.remain = 0

/-- The clauses of `State.Inv` about the registers beside the session: CFG, OUTLEN, the error record and
the command in flight. -/
structure State.RestOk (s : State) : Prop where
  cfg_reserved : s.cfg &&& ~~~cfgMask = 0
  outlen_reserved : s.outlen &&& ~~~outlenMask = 0
  no_error : s.err = .none → s.erropc = 0
  flight : ∀ f, s.inflight = some f → FlightOk s f

theorem inv_iff {s : State} : s.Inv ↔ s.spongeRegs.Ok ∧ s.RestOk := by
  constructor
  · rintro ⟨hS, hcfg, hout, hidle, hsession, habsorb, hsqueeze, hdone, herr, hflight⟩
    exact ⟨⟨hS, hidle, hsession, habsorb, hsqueeze, hdone⟩, ⟨hcfg, hout, herr, hflight⟩⟩
  · rintro ⟨⟨hS, hidle, hsession, habsorb, hsqueeze, hdone⟩, ⟨hcfg, hout, herr, hflight⟩⟩
    exact ⟨hS, hcfg, hout, hidle, hsession, habsorb, hsqueeze, hdone, herr, hflight⟩

/-- The flight guarantee reads B, PHASE and REMAIN only. -/
theorem FlightOk.of_spongeRegs {s t : State} {f : InFlight} (h : FlightOk s f)
    (hst : t.spongeRegs = s.spongeRegs) : FlightOk t f where
  wellFormed := h.wellFormed
  accepted := by
    have hkeep : commandError f.instr f.ops t = commandError f.instr f.ops s :=
      commandError_congr (congrArg SpongeRegs.width hst) (congrArg SpongeRegs.phase hst)
        (congrArg SpongeRegs.remain hst)
    rw [hkeep, h.accepted]
  cfg_reserved := h.cfg_reserved
  outlen_reserved := h.outlen_reserved

/-- An operation that leaves the session's registers as they were keeps the invariant if it keeps the
other clauses. -/
theorem State.Inv.of_spongeRegs {s t : State} (h : s.Inv) (hst : t.spongeRegs = s.spongeRegs)
    (hrest : t.RestOk) : t.Inv :=
  inv_iff.2 ⟨hst ▸ (inv_iff.1 h).1, hrest⟩

/-! ## The sponge's loops -/

theorem absorbBits_bounds {w : Width} {r : BitVec 11} (nr : BitVec 5) (hr : r.toNat < w.bits)
    (bits : List Bool) {a : Absorber} (hS : a.S.toNat < 2 ^ w.bits) (ha : a.apos.toNat < r.toNat) :
    (absorbBits w r nr a bits).S.toNat < 2 ^ w.bits ∧
      (absorbBits w r nr a bits).apos.toNat < r.toNat := by
  induction bits generalizing a with
  | nil => exact ⟨hS, ha⟩
  | cons b rest ih =>
    obtain ⟨hS', ha'⟩ := absorbBit_bounds nr b hr hS ha
    rw [absorbBits_cons]
    exact ih hS' ha'

/-- Away from the last position of the block AbsorbBit moves APOS on by one. -/
theorem absorbBit_apos_of_ne_last {w : Width} {r : BitVec 11} (nr : BitVec 5) {a : Absorber} (v : Bool)
    (h : a.apos ≠ r - 1) : (absorbBit w r nr a v).apos = a.apos + 1 := by
  have hne : a.apos + 1 ≠ r := fun hr => h (by rw [← hr, BitVec.add_sub_cancel])
  simp only [absorbBit, if_neg hne]

/-- At the last position of the block AbsorbBit starts a new block. -/
theorem absorbBit_apos_of_last {w : Width} {r : BitVec 11} (nr : BitVec 5) {a : Absorber} (v : Bool)
    (h : a.apos = r - 1) : (absorbBit w r nr a v).apos = 0 := by
  have hr : a.apos + 1 = r := by rw [h, BitVec.sub_add_cancel]
  simp only [absorbBit, if_pos hr]

/-- FINAL's loop of zeros ends at the last position of the block, and keeps the bound of S (R157). -/
theorem absorbZeros_bounds {w : Width} {r : BitVec 11} (nr : BitVec 5) (hr : r.toNat < w.bits)
    (fuel : Nat) {a : Absorber} (hS : a.S.toNat < 2 ^ w.bits) (ha : a.apos.toNat < r.toNat)
    (hfuel : r.toNat ≤ a.apos.toNat + fuel) :
    (absorbZeros w r nr fuel a).S.toNat < 2 ^ w.bits ∧ (absorbZeros w r nr fuel a).apos = r - 1 := by
  induction fuel generalizing a with
  | zero => omega
  | succ fuel ih =>
    rw [absorbZeros]
    split
    · exact ⟨hS, ‹_›⟩
    · rename_i hne
      obtain ⟨hS', ha'⟩ := absorbBit_bounds nr false hr hS ha
      refine ih hS' ha' ?_
      have hstep : (absorbBit w r nr a false).apos.toNat = a.apos.toNat + 1 := by
        rw [absorbBit_apos_of_ne_last nr false hne]
        bv_omega
      omega

/-- FINAL's AbsorbBits end at APOS 0 and keep the bound of S (R157). -/
theorem finalAbsorb_bounds {s : State} (hr : s.ract.toNat < s.width.bits)
    (hS : s.S.toNat < 2 ^ s.width.bits) (ha : s.apos.toNat < s.ract.toNat) :
    (finalAbsorb s).S.toNat < 2 ^ s.width.bits ∧ (finalAbsorb s).apos = 0 := by
  obtain ⟨hSsfx, hsfx⟩ :=
    absorbBits_bounds s.nract hr (wordBits s.sfxact s.sfxlenact.toNat) (a := s.absorber) hS ha
  obtain ⟨hSone, hone⟩ := absorbBit_bounds s.nract true hr hSsfx hsfx
  obtain ⟨hSzeros, hzeros⟩ := absorbZeros_bounds s.nract hr 2048 hSone hone (by omega)
  have hlast : (s.ract - 1).toNat < s.ract.toNat := by bv_omega
  obtain ⟨hSlast, -⟩ := absorbBit_bounds s.nract true hr hSzeros (hzeros ▸ hlast)
  exact ⟨hSlast, absorbBit_apos_of_last s.nract true hzeros⟩

theorem squeezeBits_bounds {w : Width} {r : BitVec 11} (nr : BitVec 5) (h1 : 1 ≤ r.toNat) (n : Nat)
    {q : Squeezer} (hS : q.S.toNat < 2 ^ w.bits) (hq : q.spos.toNat ≤ r.toNat) :
    (squeezeBits w r nr n q).2.S.toNat < 2 ^ w.bits ∧
      (squeezeBits w r nr n q).2.spos.toNat ≤ r.toNat := by
  induction n generalizing q with
  | zero => exact ⟨hS, hq⟩
  | succ n ih =>
    obtain ⟨hS', hq'⟩ := squeezeBit_bounds nr hS h1 hq
    rw [squeezeBits_succ]
    exact ih hS' hq'

/-! ## The commands at completion -/

theorem zero_lt_two_pow_bits (w : Width) : (0 : BitVec 1600).toNat < 2 ^ w.bits :=
  lt_of_eq_of_lt BitVec.toNat_zero (Nat.two_pow_pos w.bits)

/-- A command that writes S only. -/
theorem SpongeRegs.Ok.with_S {r : SpongeRegs} (h : r.Ok) {S : BitVec 1600}
    (hS : S.toNat < 2 ^ r.width.bits) : SpongeRegs.Ok { r with S := S } :=
  { h with array_width := hS }

theorem initEffect_ok {o : Operands} {s : State} (hacc : commandError .init o s = .none) :
    (initEffect o s).spongeRegs.Ok := by
  obtain ⟨p, hp, hd⟩ := session_of_init_accepted hacc
  rw [initEffect_spongeRegs hp]
  have hlegal := sessionOf_legal hp
  have hd' : 1 ≤ p.d.toNat := by bv_omega
  constructor
  case array_width => exact zero_lt_two_pow_bits s.width
  case session => exact fun _ => hlegal
  case absorb => exact fun _ => ⟨by simp; omega, rfl, hd'⟩
  all_goals exact nofun

theorem absorbEffect_ok {n : Nat} {o : Operands} {s : State} (h : s.spongeRegs.Ok)
    (hp : s.phase = .absorb) : (absorbEffect n o s).spongeRegs.Ok := by
  have hne : s.phase ≠ .idle := by simp [hp]
  obtain ⟨ha, hspos, hremain⟩ := h.absorb hp
  obtain ⟨-, hr, -⟩ := h.session hne
  obtain ⟨hS, ha'⟩ := absorbBits_bounds s.nract hr (wordBits o.din n)
    (a := s.absorber) h.array_width ha
  constructor
  case array_width => exact hS
  case session => exact fun _ => h.session hne
  case absorb => exact fun _ => ⟨ha', hspos, hremain⟩
  all_goals intro hphase; cases hp.symm.trans hphase

theorem finalEffect_spongeRegs (o : Operands) (s : State) :
    (finalEffect o s).spongeRegs =
      { s.spongeRegs with
        S := (finalAbsorb s).S, apos := (finalAbsorb s).apos, spos := 0, phase := .squeeze } := rfl

theorem finalEffect_ok {o : Operands} {s : State} (h : s.spongeRegs.Ok) (hp : s.phase = .absorb) :
    (finalEffect o s).spongeRegs.Ok := by
  have hne : s.phase ≠ .idle := by simp [hp]
  obtain ⟨ha, -, hremain⟩ := h.absorb hp
  obtain ⟨-, hr, -⟩ := h.session hne
  obtain ⟨hS, hapos⟩ := finalAbsorb_bounds hr h.array_width ha
  rw [finalEffect_spongeRegs]
  constructor
  case array_width => exact hS
  case session => exact fun _ => h.session hne
  case squeeze => exact fun _ => ⟨hapos, Nat.zero_le _, hremain⟩
  all_goals exact nofun

theorem squeezeEffect_ok {n : Nat} {o : Operands} {s : State} (h : s.spongeRegs.Ok)
    (hp : s.phase = .squeeze) : (squeezeEffect n o s).spongeRegs.Ok := by
  have hne : s.phase ≠ .idle := by simp [hp]
  obtain ⟨hapos, hspos, -⟩ := h.squeeze hp
  obtain ⟨hr, -⟩ := h.session hne
  obtain ⟨hS, hspos'⟩ := squeezeBits_bounds s.nract hr n (q := ⟨s.S, s.spos⟩)
    h.array_width hspos
  by_cases hlast : s.remain - BitVec.ofNat 32 n = 0
  · have hphase : (squeezeEffect n o s).phase = .done := by rw [squeezeEffect_phase, if_pos hlast]
    constructor
    case array_width => exact hS
    case session => exact fun _ => h.session hne
    case done => exact fun _ => ⟨hapos, hspos', hlast⟩
    all_goals intro hc; cases hphase.symm.trans hc
  · have hphase : (squeezeEffect n o s).phase = .squeeze := by rw [squeezeEffect_phase, if_neg hlast, hp]
    have hleft : 1 ≤ (s.remain - BitVec.ofNat 32 n).toNat := by bv_omega
    constructor
    case array_width => exact hS
    case session => exact fun _ => h.session hne
    case squeeze => exact fun _ => ⟨hapos, hspos', hleft⟩
    all_goals intro hc; cases hphase.symm.trans hc

theorem clearEffect_ok (o : Operands) (s : State) : (clearEffect o s).spongeRegs.Ok := by
  constructor
  case array_width => exact zero_lt_two_pow_bits s.width
  case idle => exact fun _ => ⟨rfl, rfl, rfl, rfl, rfl, rfl, rfl⟩
  case session => exact fun hne => absurd rfl hne
  all_goals exact nofun

/-- The effect of a legal command that passed its checks keeps the clauses about the session. -/
theorem effectOf_ok {i : Instr} {o : Operands} {s : State} (h : s.spongeRegs.Ok)
    (hwf : i.wellFormed = true) (hacc : commandError i o s = .none) : (effectOf i o s).spongeRegs.Ok := by
  have hphase := phaseAllows_of_accepted hacc
  cases i with
  | nop => exact h
  | init => exact initEffect_ok hacc
  | absorb n => exact absorbEffect_ok h (by simpa [phaseAllows] using hphase)
  | final => exact finalEffect_ok (o := o) h (by simpa [phaseAllows] using hphase)
  | squeeze n => exact squeezeEffect_ok (o := o) h (by simpa [phaseAllows] using hphase)
  | permute => exact h.with_S (keccakP_lt _ _ _)
  | xorlane k =>
    have hk : k < 25 := by simpa [Instr.wellFormed, laneIndexOk] using hwf
    exact h.with_S (xorLane_lt _ _ hk h.array_width)
  | loadlane k =>
    have hk : k < 25 := by simpa [Instr.wellFormed, laneIndexOk] using hwf
    exact h.with_S (loadLane_lt _ _ hk h.array_width)
  | clear => exact clearEffect_ok o s

/-- A command leaves the error record as it is, or it is CLEAR and erases it (R181, R212). -/
theorem effectOf_error (i : Instr) (o : Operands) (s : State) :
    ((effectOf i o s).err = s.err ∧ (effectOf i o s).erropc = s.erropc) ∨
    (i = .clear ∧ (effectOf i o s).err = .none ∧ (effectOf i o s).erropc = 0) := by
  cases i with
  | clear => exact .inr ⟨rfl, rfl, rfl⟩
  | nop => exact .inl ⟨rfl, rfl⟩
  | _ => exact .inl (by simp [effectOf])

/-- The effect of a legal command that passed its checks keeps the invariant. -/
theorem effectOf_inv {i : Instr} {o : Operands} {s : State} (h : s.Inv) (hidle : s.inflight = none)
    (hwf : i.wellFormed = true) (hacc : commandError i o s = .none) : (effectOf i o s).Inv := by
  obtain ⟨hsponge, hrest⟩ := inv_iff.1 h
  obtain ⟨-, -, hcfg, hout, -, hflight, -⟩ := effectOf_keeps i o s
  refine inv_iff.2 ⟨effectOf_ok hsponge hwf hacc, ?_⟩
  constructor
  case cfg_reserved => rw [hcfg]; exact hrest.cfg_reserved
  case outlen_reserved => rw [hout]; exact hrest.outlen_reserved
  case flight => rw [hflight, hidle]; exact nofun
  case no_error =>
    rcases effectOf_error i o s with ⟨herr, hopc⟩ | ⟨-, -, hopc⟩
    · rw [herr, hopc]; exact hrest.no_error
    · exact fun _ => hopc

/-! ## The transactions -/

/-- A decoded command has operands in their ranges (R82, R83, R90). -/
theorem wellFormed_of_decode {v : Word} {i : Instr} (h : decode v = .ok i) : i.wellFormed = true := by
  have hnm1 := (fieldNm1 v).isLt
  unfold decode at h
  simp only at h
  split_ifs at h with hres hopc hn hk hlane
  generalize (fieldOpc v).toNat = opc at h hopc hlane
  interval_cases opc <;> cases h <;>
    simp_all [Instr.wellFormed, bitCountOk, laneIndexOk, usesK]

/-- An operation that leaves the session's registers, the error record and the command in flight as they
were keeps the invariant if it stores no reserved bit. -/
theorem State.Inv.of_same_record {s t : State} (h : s.Inv) (hst : t.spongeRegs = s.spongeRegs)
    (hcfg : t.cfg &&& ~~~cfgMask = 0) (hout : t.outlen &&& ~~~outlenMask = 0) (herr : t.err = s.err)
    (hopc : t.erropc = s.erropc) (hflight : t.inflight = s.inflight) : t.Inv :=
  h.of_spongeRegs hst
    { cfg_reserved := hcfg
      outlen_reserved := hout
      no_error := by rw [herr, hopc]; exact h.no_error
      flight := fun f hf => (h.flight f (hflight ▸ hf)).of_spongeRegs hst }

theorem popLatency_inv {s : State} (h : s.Inv) : s.popLatency.Inv :=
  h.of_same_record rfl h.cfg_reserved h.outlen_reserved rfl rfl rfl

theorem reject_inv {s : State} (h : s.Inv) {e : ErrCode} (he : e ≠ .none) (opc : BitVec 4) :
    (s.reject e opc).Inv := by
  by_cases herr : s.err = .none
  · rw [reject_of_no_error herr]
    exact h.of_spongeRegs rfl
      { cfg_reserved := h.cfg_reserved
        outlen_reserved := h.outlen_reserved
        no_error := fun hnone => absurd hnone he
        flight := fun f hf => (h.flight f hf).of_spongeRegs rfl }
  · rw [reject_of_error herr]
    exact h

theorem launch_inv {i : Instr} {s : State} (h : s.Inv) (hwf : i.wellFormed = true)
    (hacc : commandError i s.operands s = .none) (n : Nat) : (s.launch i n).Inv := by
  refine h.of_spongeRegs rfl
    { cfg_reserved := h.cfg_reserved, outlen_reserved := h.outlen_reserved, no_error := h.no_error,
      flight := ?_ }
  rintro f ⟨⟩
  have hflight : FlightOk s ⟨i, s.operands, n⟩ := ⟨hwf, hacc, h.cfg_reserved, h.outlen_reserved⟩
  exact hflight.of_spongeRegs rfl

theorem exec_inv {i : Instr} {s t : State} (h : s.Inv) (hwf : i.wellFormed = true)
    (hx : exec i s = .next t) : t.Inv := by
  rcases exec_cases i s with
    ⟨-, hs⟩ | ⟨-, -, -, hs⟩ | ⟨-, -, hrej, hs⟩ | ⟨-, -, hacc, -, hs⟩ | ⟨hidle, -, hacc, -, hs⟩ <;>
    cases hs.symm.trans hx
  · exact reject_inv h (by decide) i.opcode
  · exact h
  · exact reject_inv h hrej i.opcode
  · exact launch_inv h hwf hacc s.nextLatency
  · exact effectOf_inv (popLatency_inv h) hidle hwf ((commandError_congr rfl rfl rfl).trans hacc)

theorem illegalWord_inv {s : State} (h : s.Inv) (v : Word) : (s.illegalWord v).Inv := by
  unfold State.illegalWord
  split
  · exact reject_inv h (by decide) _
  · split
    · exact h
    · exact reject_inv h (by decide) _

theorem issueWord_inv {v : Word} {s t : State} (h : s.Inv) (hx : issueWord v s = .next t) : t.Inv := by
  cases hd : decode v with
  | ok i => exact exec_inv h (wellFormed_of_decode hd) ((issueWord_of_decode hd s).symm.trans hx)
  | error e =>
    cases (issueWord_of_illegal hd s).symm.trans hx
    exact illegalWord_inv h v

/-- A store mask leaves no reserved bit (R35, R36). -/
theorem and_mask_reserved (v mask : Word) : v &&& mask &&& ~~~mask = 0 := by
  rw [BitVec.and_assoc, BitVec.and_not_self]
  exact BitVec.and_zero

theorem hostWrite_inv {addr size : Nat} {v : Word} {s t : State} (h : s.Inv)
    (hx : hostWrite addr size v s = .next t) : t.Inv := by
  rcases hostWrite_cases addr size v s with
    hw | hw | ⟨-, -, hw⟩ | ⟨-, -, hw⟩ | ⟨-, -, hw⟩ | ⟨-, -, hw⟩ <;> have hs := hw.symm.trans hx
  · cases hs
  · cases hs; exact h
  · cases hs; exact h.of_same_record rfl (and_mask_reserved v cfgMask) h.outlen_reserved rfl rfl rfl
  · cases hs; exact h.of_same_record rfl h.cfg_reserved (and_mask_reserved v outlenMask) rfl rfl rfl
  · cases hs; exact h.of_same_record rfl h.cfg_reserved h.outlen_reserved rfl rfl rfl
  · exact issueWord_inv h hs

theorem hostRead_inv {addr size : Nat} {s t : State} (h : s.Inv) (hx : hostRead addr size s = .next t) :
    t.Inv := by
  rcases hostRead_cases addr size s with hr | ⟨v, hr⟩ | ⟨-, hr⟩ <;> cases hr.symm.trans hx <;>
    exact h.of_same_record rfl h.cfg_reserved h.outlen_reserved rfl rfl rfl

theorem hostPoll_inv {s : State} (h : s.Inv) : (hostPoll s).Inv := by
  rcases hostPoll_cases s with hp | hp <;> rw [hp] <;>
    exact h.of_same_record rfl h.cfg_reserved h.outlen_reserved rfl rfl rfl

/-! ## Reset -/

theorem resetCfg_reserved (w : Width) : w.resetCfg &&& ~~~cfgMask = 0 := by
  cases w <;> decide

/-- A state whose block is at the reset values of R230 meets the invariant, whatever the host's record. -/
theorem inv_of_reset_values {s : State} {w : Width} {base : Nat}
    (hsponge : s.spongeRegs = (State.resetAt w base).spongeRegs) (hcfg : s.cfg = w.resetCfg)
    (hout : s.outlen = 0) (hopc : s.erropc = 0) (hflight : s.inflight = none) : s.Inv := by
  refine inv_iff.2 ⟨?_, ?_⟩
  · rw [hsponge]
    constructor
    case array_width => exact zero_lt_two_pow_bits w
    case idle => exact fun _ => ⟨rfl, rfl, rfl, rfl, rfl, rfl, rfl⟩
    case session => exact fun hne => absurd rfl hne
    all_goals exact nofun
  · exact
      { cfg_reserved := hcfg ▸ resetCfg_reserved w
        outlen_reserved := by rw [hout]; exact BitVec.zero_and
        no_error := fun _ => hopc
        flight := by rw [hflight]; exact nofun }

theorem afterReset_inv (s : State) : s.afterReset.Inv :=
  inv_of_reset_values (w := s.width) (base := s.windowBase) rfl rfl rfl rfl rfl

/-! ## The step -/

theorem hostEvent_inv {e : HostEvent} {s t : State} (h : s.Inv) (hx : hostEvent e s = .next t) :
    t.Inv := by
  cases e with
  | write addr size v => exact hostWrite_inv h hx
  | read addr size => exact hostRead_inv h hx
  | poll => cases hx; exact hostPoll_inv h
  | reset => cases hx; exact afterReset_inv s

theorem complete_inv {f : InFlight} {s : State} (h : s.Inv) (hf : s.inflight = some f) :
    (complete f s).Inv := by
  have hflight := h.flight f hf
  have hidle : State.Inv { s with inflight := none } :=
    h.of_spongeRegs rfl
      { cfg_reserved := h.cfg_reserved, outlen_reserved := h.outlen_reserved, no_error := h.no_error,
        flight := nofun }
  exact effectOf_inv hidle rfl hflight.wellFormed (hflight.of_spongeRegs rfl).accepted

/-- Counting an access, and taking it from the queue, keep the invariant. -/
theorem tick_inv {s : State} (h : s.Inv) (rest : List HostEvent) :
    State.Inv { s.tick with queue := rest } := by
  refine h.of_spongeRegs rfl
    { cfg_reserved := h.cfg_reserved, outlen_reserved := h.outlen_reserved, no_error := h.no_error,
      flight := ?_ }
  intro f hf
  obtain ⟨g, hg, rfl⟩ := Option.map_eq_some_iff.1 hf
  have hg' := (h.flight g hg).of_spongeRegs (t := { s.tick with queue := rest }) rfl
  exact ⟨hg'.wellFormed, hg'.accepted, hg'.cfg_reserved, hg'.outlen_reserved⟩

/-- Settles O51: the completion of a command in flight keeps the invariant because its checks still hold,
and so does every transaction. -/
theorem everyStepKeepsTheInvariant : Obligations.EveryStepKeepsTheInvariant := by
  intro s t h hx
  rcases step_cases s with ⟨f, hf, -, hs⟩ | ⟨-, -, hs⟩ | ⟨e, rest, -, -, hs⟩
  · cases hs.symm.trans hx
    exact complete_inv h hf
  · cases hs.symm.trans hx
    exact h
  · exact hostEvent_inv (tick_inv h rest) (hs.symm.trans hx)

end Sys2Proof.Machine
end

section
/-! PROOFS. What changes the session: the state array, PHASE, the session parameters and DOUT, and the runs
from reset (spec 10_state.md R26, R27, R31, R42, R50). -/

namespace Sys2Proof.Machine

/-! ## Runs from reset -/

/-- A run of k + 1 steps that stops nowhere is a step and a run of k steps. -/
theorem step_of_run_succ {k : Nat} {s t : State}
    (h : Host.Core.run Sys2Proof.core (k + 1) s = .next t) :
    ∃ u, step s = .next u ∧ Host.Core.run Sys2Proof.core k u = .next t := by
  have hrun : ∀ (M : Host.Core) (a b : M.State), M.run (k + 1) a = .next b →
      ∃ u, M.step a = .next u ∧ M.run k u = .next b := by
    intro M a b hab
    simp only [Host.Core.run] at hab
    split at hab
    · exact ⟨_, ‹_›, hab⟩
    · cases hab
    · cases hab
  exact hrun Sys2Proof.core s t h

/-- A run from a state that meets the invariant stays among such states. -/
theorem run_inv (k : Nat) {s t : State} (h : s.Inv)
    (hrun : Host.Core.run Sys2Proof.core k s = .next t) : t.Inv := by
  induction k generalizing s with
  | zero => cases hrun; exact h
  | succ k ih =>
    obtain ⟨u, hstep, hrest⟩ := step_of_run_succ hrun
    exact ih (everyStepKeepsTheInvariant s u h hstep) hrest

/-- Settles O52: a run from reset keeps the invariant, whose clauses these are. -/
theorem reachableStatesMeetTheClauses : Obligations.ReachableStatesMeetTheClauses := by
  intro w base queue latency k s hrun _
  have hstart : State.Inv { State.resetAt w base with queue := queue, latency := latency } :=
    inv_of_reset_values (w := w) (base := base) rfl rfl rfl rfl rfl
  have h := run_inv k hstart hrun
  refine ⟨fun hp => ?_, fun hp => ?_, h.squeeze, fun hp => ?_, fun hp => ?_⟩
  · obtain ⟨hapos, hspos, hremain, -⟩ := h.idle hp
    exact ⟨hapos, hspos, hremain⟩
  · obtain ⟨hr, hr', -⟩ := h.session (by simp [hp])
    obtain ⟨hapos, hspos, hremain⟩ := h.absorb hp
    exact ⟨hr, by omega, hapos, hspos, hremain⟩
  · obtain ⟨hapos, -, hremain⟩ := h.done hp
    exact ⟨hremain, hapos⟩
  · obtain ⟨-, -, hparams⟩ := h.session hp
    exact hparams

/-! ## The state array -/

/-- Settles O53: of the transactions only a reset and a CMD write that completes at once write S, and the
effect of NOP does not. -/
theorem onlyCommandsAndResetChangeTheStateArray : Obligations.OnlyCommandsAndResetChangeTheStateArray := by
  intro s t hx hS
  rcases step_cases s with ⟨f, hf, hdue, hs⟩ | ⟨-, -, hs⟩ | ⟨e, rest, hq, -, hs⟩
  · cases hs.symm.trans hx
    refine .inl ⟨f, hf, hdue, fun hnop => hS ?_, rfl⟩
    rw [complete, hnop]
    rfl
  · cases hs.symm.trans hx
    exact absurd rfl hS
  · rcases hostEvent_spongeRegs (hs.symm.trans hx) with hkeep | rfl | ⟨v, i, rfl, hd, hdone⟩
    · exact absurd (congrArg SpongeRegs.S hkeep) hS
    · exact .inr (.inr ⟨rest, hq⟩)
    · have hidle : s.inflight = none := Option.map_eq_none_iff.1 hdone.idle
      refine .inr (.inl ⟨v, i, rest, hidle, hdone.atOnce, hq, hd, fun hnop => hS ?_⟩)
      rw [hdone.result, hnop]
      rfl

/-! ## PHASE and the session parameters -/

/-- How a command that passed its checks moves PHASE (R27). -/
theorem effectOf_phase {i : Instr} {o : Operands} {s : State} (hacc : commandError i o s = .none) :
    (effectOf i o s).phase = s.phase ∨
    (i = .init ∧ (effectOf i o s).phase = .absorb) ∨
    (i = .final ∧ s.phase = .absorb ∧ (effectOf i o s).phase = .squeeze) ∨
    (∃ n, i = .squeeze n ∧ s.phase = .squeeze ∧ (effectOf i o s).phase = .done ∧
      (effectOf i o s).remain = 0) ∨
    (i = .clear ∧ (effectOf i o s).phase = .idle) := by
  have hphase := phaseAllows_of_accepted hacc
  cases i with
  | init =>
    obtain ⟨p, hp, -⟩ := session_of_init_accepted hacc
    exact .inr (.inl ⟨rfl, congrArg SpongeRegs.phase (initEffect_spongeRegs hp)⟩)
  | final => exact .inr (.inr (.inl ⟨rfl, by simpa [phaseAllows] using hphase, rfl⟩))
  | squeeze n =>
    by_cases hlast : s.remain - BitVec.ofNat 32 n = 0
    · exact .inr (.inr (.inr (.inl ⟨n, rfl, by simpa [phaseAllows] using hphase, if_pos hlast, hlast⟩)))
    · exact .inl (if_neg hlast)
  | clear => exact .inr (.inr (.inr (.inr ⟨rfl, rfl⟩)))
  | _ => exact .inl rfl

/-- Settles O55: a CMD write moves PHASE only as the effect of a command that passed its checks. -/
theorem onlyTheListedCommandsMovePhase : Obligations.OnlyTheListedCommandsMovePhase := by
  intro s t i hx hne
  rcases exec_spongeRegs hx with hkeep | ⟨-, hacc, -, rfl⟩
  · exact absurd (congrArg SpongeRegs.phase hkeep) hne
  · rcases effectOf_phase (s := s.popLatency) hacc with hsame | hmove
    · exact absurd hsame hne
    · exact hmove

/-- Settles O56: no command's effect but INIT's and CLEAR's writes the session parameters. -/
theorem sessionParametersAreLatched : Obligations.SessionParametersAreLatched := by
  intro s t i hx
  rcases exec_spongeRegs hx with hkeep | ⟨-, -, -, rfl⟩
  · exact .inl ⟨congrArg SpongeRegs.ract hkeep, congrArg SpongeRegs.nract hkeep,
      congrArg SpongeRegs.sfxlenact hkeep, congrArg SpongeRegs.sfxact hkeep⟩
  · cases i with
    | init => exact .inr (.inl rfl)
    | clear => exact .inr (.inr ⟨rfl, rfl, rfl, rfl, rfl⟩)
    | nop => exact .inl ⟨rfl, rfl, rfl, rfl⟩
    | _ => exact .inl (by simp [effectOf])

end Sys2Proof.Machine
end

section
/-! PROOFS. The register window: what each register reads as, and what a write to it does
(spec 10_state.md R34 to R44; 20_memory.md R62, R69). -/

namespace Sys2Proof.Machine

/-! ## Reads and writes of the named registers -/

theorem readReg_of_exact {r : Reg} (s : State) (hr : r.unspecifiedWhileBusy = false) :
    s.readReg r = s.answer (s.regValue r) := by
  simp [State.readReg, hr]

theorem readReg_of_idle (r : Reg) {s : State} (h : s.inflight = none) :
    s.readReg r = s.answer (s.regValue r) := by
  simp [State.readReg, busy_eq_false_iff.2 h]

/-- A read that R235 leaves exact in every state. -/
theorem hostRead_of_exact (r : Reg) (s : State) (hr : r.unspecifiedWhileBusy = false) :
    hostRead (s.windowBase + r.offset) 8 s = .next { s with reply := some (s.regValue r) } := by
  rw [hostRead_reg, readReg_of_exact s hr]
  rfl

/-- A read while BUSY = 0. -/
theorem hostRead_of_idle (r : Reg) {s : State} (h : s.inflight = none) :
    hostRead (s.windowBase + r.offset) 8 s = .next { s with reply := some (s.regValue r) } := by
  rw [hostRead_reg, readReg_of_idle r h]
  rfl

/-! ## The fields of a packed register -/

@[simp] theorem extractLsb'_fieldAt_same {n : Nat} (v : BitVec n) (lo : Nat) (h : lo + n ≤ 64) :
    (fieldAt v lo).extractLsb' lo n = v := by
  ext i hi
  have hlt : lo + i < 64 := by omega
  rw [BitVec.getElem_extractLsb', getLsbD_fieldAt, Nat.add_sub_cancel_left]
  simp [hlt, hi]

@[simp] theorem extractLsb'_fieldAt_below {n : Nat} (v : BitVec n) (lo lo' m : Nat) (h : lo' + m ≤ lo) :
    (fieldAt v lo).extractLsb' lo' m = 0 := by
  ext i hi
  have hlt : ¬lo ≤ lo' + i := by omega
  simp [BitVec.getElem_extractLsb', getLsbD_fieldAt, hlt]

@[simp] theorem extractLsb'_fieldAt_above {n : Nat} (v : BitVec n) (lo lo' m : Nat) (h : lo + n ≤ lo') :
    (fieldAt v lo).extractLsb' lo' m = 0 := by
  ext i hi
  have hv : v.getLsbD (lo' + i - lo) = false := BitVec.getLsbD_of_ge v _ (by omega)
  simp [BitVec.getElem_extractLsb', getLsbD_fieldAt, hv]

/-! ## STATUS, POS, CUR and PARAM -/

/-- Settles O27: STATUS packs its fields at their places, and R235 leaves its read exact. -/
theorem statusReadsItsFields : Obligations.StatusReadsItsFields := by
  refine ⟨fun s => ⟨hostRead_of_exact .status s rfl, ?_, ?_, ?_, ?_, ?_, ?_, fun v => ?_⟩, ?_⟩
  · simp only [State.statusWord, BitVec.getLsbD_or, getLsbD_fieldAt]
    simp [State.busy]
  · have hphase : s.statusWord.extractLsb' 1 2 = s.phase.code := by
      simp [State.statusWord, BitVec.extractLsb'_or]
    rw [hphase]
    cases s.phase <;> rfl
  · simp [State.statusWord, BitVec.extractLsb'_or]
  · have herr : s.statusWord.extractLsb' 4 4 = s.err.code := by
      simp [State.statusWord, BitVec.extractLsb'_or]
    rw [herr]
    cases s.err <;> rfl
  · simp [State.statusWord, BitVec.extractLsb'_or]
  · simp [State.statusWord, BitVec.extractLsb'_or]
  · exact hostWrite_reg .status v s
  · decide

/-- Settles O28: POS and CUR pack their fields at their places, and their reads are exact while BUSY = 0. -/
theorem posAndCurReadTheirFields : Obligations.PosAndCurReadTheirFields := by
  refine ⟨fun s => ⟨fun h => ⟨hostRead_of_idle .pos h, hostRead_of_idle .cur h⟩, ?_⟩, by decide, by decide⟩
  have hwrite : ∀ v, hostWrite (s.windowBase + 0x030) 8 v s = .next s ∧
      hostWrite (s.windowBase + 0x038) 8 v s = .next s :=
    fun v => ⟨hostWrite_reg .pos v s, hostWrite_reg .cur v s⟩
  simp [State.posWord, State.curWord, BitVec.extractLsb'_or, hwrite]

/-- Settles O29: PARAM's fields, width by width. -/
theorem paramDescribesTheBuild : Obligations.ParamDescribesTheBuild := by
  refine ⟨fun s => ⟨hostRead_of_exact .param s rfl, fun v => hostWrite_reg .param v s⟩, ?_, by decide, rfl⟩
  intro w
  cases w <;> decide

/-! ## CFG, OUTLEN, DIN and DOUT -/

/-- Settles O31: the three registers store at once, and R235 leaves their reads exact. -/
theorem operandRegistersStoreUnderTheirMasks : Obligations.OperandRegistersStoreUnderTheirMasks := by
  intro s v
  exact ⟨hostWrite_reg .cfg v s, hostWrite_reg .outlen v s, hostWrite_reg .din v s,
      hostRead_of_exact .cfg s rfl, hostRead_of_exact .outlen s rfl, hostRead_of_exact .din s rfl⟩

/-- An accepted INIT or CLEAR zeroes DOUT (R42, R155, R181). -/
theorem effectOf_dout_eq_zero {i : Instr} {o : Operands} {s : State} (hi : i = .init ∨ i = .clear)
    (hacc : commandError i o s = .none) : (effectOf i o s).dout = 0 := by
  rcases hi with rfl | rfl
  · obtain ⟨p, hp, -⟩ := session_of_init_accepted hacc
    exact congrArg SpongeRegs.dout (initEffect_spongeRegs hp)
  · rfl

/-- No command but SQUEEZE, INIT and CLEAR writes DOUT (R42). -/
theorem effectOf_dout_cases {i : Instr} {o : Operands} {s : State} (hacc : commandError i o s = .none) :
    (effectOf i o s).dout = s.dout ∨ (∃ n, i = .squeeze n) ∨
      ((i = .init ∨ i = .clear) ∧ (effectOf i o s).dout = 0) := by
  cases i with
  | squeeze n => exact .inr (.inl ⟨n, rfl⟩)
  | init => exact .inr (.inr ⟨.inl rfl, effectOf_dout_eq_zero (.inl rfl) hacc⟩)
  | clear => exact .inr (.inr ⟨.inr rfl, rfl⟩)
  | _ => exact .inl rfl

/-- Settles O32: DOUT's read and writes from the register window, and its changes from the effects of the
commands, at the accepting write or at the completion. -/
theorem doutIsWrittenBySqueezeInitAndClear : Obligations.DoutIsWrittenBySqueezeInitAndClear := by
  refine ⟨fun s => ⟨hostRead_of_idle .dout, fun v => hostWrite_reg .dout v s⟩, ?_, ?_, ?_, rfl⟩
  · intro s i hi hidle herr hlat hacc
    refine ⟨_, ?_, effectOf_dout_eq_zero (s := s.popLatency) hi hacc⟩
    rw [exec_eq_issue, issue_accepted _ hidle herr hacc, accept_at_once _ _ hlat]
    rfl
  · intro s f hf hdue hi hacc
    exact ⟨_, step_completes (completing_eq_some hf hdue),
      effectOf_dout_eq_zero (s := { s with inflight := none }) hi hacc⟩
  · intro s t i hx
    rcases exec_spongeRegs hx with hkeep | ⟨-, hacc, -, rfl⟩
    · exact .inl (congrArg SpongeRegs.dout hkeep)
    · exact effectOf_dout_cases (s := s.popLatency) hacc

/-! ## The lane window -/

/-- Bit z of LANE[k] as a host word (R43, R64). -/
theorem getLsbD_lane (w : Width) (S : BitVec 1600) (k z : Nat) :
    ((stateLane w.laneBits S k).setWidth 64).getLsbD z =
      (decide (z < w.laneBits) && cubeBit w S (k % 5) (k / 5) z) := by
  have hk : 5 * (k / 5) + k % 5 = k := Nat.div_add_mod k 5
  have hW := laneBits_le w
  rw [BitVec.getLsbD_setWidth, getLsbD_stateLane, cubeBit, hk]
  by_cases hz : z < w.laneBits
  · simp [hz, hz.trans_le hW]
  · simp [hz]

/-- Settles O30: LANE[k] shows lane k of S, read exactly while BUSY = 0. -/
theorem laneWindowReadsTheState : Obligations.LaneWindowReadsTheState :=
  ⟨fun s k => ⟨fun h => ⟨_, hostRead_of_idle (.lane k) h, fun z => getLsbD_lane s.width s.S k.val z⟩,
    fun v => hostWrite_reg (.lane k) v s⟩, rfl⟩

/-! ## Reserved locations -/

/-- No register stands at a reserved offset (R44, R61). -/
theorem regAt_reserved {off : Nat} (h : 0x048 ≤ off ∧ off < 0x100 ∨ 0x1C8 ≤ off ∧ off < 0x200) :
    regAt off = none := by
  unfold regAt
  iterate 9 rw [if_neg (by omega)]
  rw [dif_neg (by omega)]

theorem windowOffset_of_lt (base : Nat) {off : Nat} (h : off < 0x200) :
    windowOffset base (base + off) = some off := by
  simp [windowOffset, windowBytes, h]

/-- Settles O34: a reserved offset has no register, so it reads 0 and ignores writes at any width of
access; CMD reads as 0. -/
theorem reservedLocationsReadZero : Obligations.ReservedLocationsReadZero := by
  refine fun s => ⟨fun off size hoff => ?_, hostRead_of_exact .cmd s rfl⟩
  have hwindow := windowOffset_of_lt s.windowBase (off := off) (by omega)
  refine ⟨?_, fun v => ?_⟩
  · simp [hostRead, hwindow, regAt_reserved hoff, State.answer]
  · simp [hostWrite, hwindow, regAt_reserved hoff]

/-! ## Side effects of accesses -/

/-- Settles O35: a read only answers the host, and a write beside CMD, CFG, OUTLEN and DIN is ignored. -/
theorem onlyCmdWritesHaveSideEffects : Obligations.OnlyCmdWritesHaveSideEffects := by
  refine ⟨fun s t addr size hx => ?_, fun s v => ?_, fun s t addr size v hx hother => ?_⟩
  · rcases hostRead_cases addr size s with hr | ⟨v, hr⟩ | ⟨-, hr⟩ <;> cases hr.symm.trans hx <;> rfl
  · exact ⟨hostWrite_reg .cmd v s, hostWrite_reg .cfg v s, hostWrite_reg .outlen v s,
      hostWrite_reg .din v s⟩
  · rcases hostWrite_cases addr size v s with
      hw | hw | ⟨ha, h8, -⟩ | ⟨ha, h8, -⟩ | ⟨ha, h8, -⟩ | ⟨ha, h8, -⟩
    · cases hw.symm.trans hx
    · cases hw.symm.trans hx
      rfl
    iterate 4 · exact absurd ha (hother h8 _ (by simp))

/-! ## A write to CMD as the next transaction -/

/-- Settles O4: the step takes the write from the queue, and the write issues the decoded command. -/
theorem stepRunsTheDecodedCommand : Obligations.StepRunsTheDecodedCommand := by
  intro s v i rest hq hd
  have hissue : ∀ u : State, u.windowBase = s.windowBase →
      hostEvent (.write (s.windowBase + 0x020) 8 v) u = exec i u := fun u hu =>
    hu ▸ (hostWrite_reg .cmd v u).trans (issueWord_of_decode hd u)
  refine ⟨fun hidle => ?_, fun f n hf hleft => ?_⟩
  · rw [step_takes (completing_of_idle hidle) hq, tick_of_idle hidle]
    exact hissue _ rfl
  · have hwait : s.completing = none := completing_eq_none hf (by omega) (by simp [hq])
    have htick : s.tick = { s with inflight := some { f with left := n } } := by
      simp [State.tick, hf, hleft]
    rw [step_takes hwait hq, htick]
    exact hissue _ rfl

/-- Settles O5: `withFetchWord` puts the CMD write at the head of the queue. -/
theorem fetchWordIsRunNext : Obligations.FetchWordIsRunNext := by
  intro s nbits w i hidle hd
  have hdecode : decode (tableWord nbits w) = .ok i := by
    unfold decodeTableWord at hd
    split at hd
    · cases hd; assumption
    · cases hd
  exact (stepRunsTheDecodedCommand (s.withFetchWord nbits w) _ i s.queue rfl hdecode).1 hidle

end Sys2Proof.Machine
end

section
/-! PROOFS. The linear, cube and lane views of the state (spec 10_state.md R20 to R23). -/

namespace Sys2Proof.Machine

/-! ## Arrays built bit by bit -/

/-- A bit of an array built by a fold, each step of which may set that bit. -/
theorem getLsbD_foldl_or {n : Nat} {α : Type} {f : BitVec n → α → BitVec n} {bit : α → Bool} {j : Nat}
    (hf : ∀ S a, (f S a).getLsbD j = (S.getLsbD j || bit a)) (l : List α) (S : BitVec n) :
    (l.foldl f S).getLsbD j = (S.getLsbD j || l.any bit) := by
  induction l generalizing S with
  | nil => simp
  | cons a l ih => rw [List.foldl_cons, ih, hf, List.any_cons, Bool.or_assoc]

/-- A fold over 0 .. n − 1 one of whose indices decides the bit. -/
theorem any_range_eq {n k : Nat} {p : Nat → Bool} (hp : ∀ i, p i = true → i = k) :
    (List.range n).any p = (decide (k < n) && p k) := by
  rw [Bool.eq_iff_iff]
  simp only [List.any_eq_true, List.mem_range, Bool.and_eq_true, decide_eq_true_eq]
  constructor
  · rintro ⟨i, hi, hpi⟩
    obtain rfl := hp i hpi
    exact ⟨hi, hpi⟩
  · exact fun h => ⟨k, h⟩

/-- Bit j of the array made of a cube (R21, R22). -/
theorem getLsbD_ofCube (w : Width) (A : Nat → Nat → Nat → Bool) (j : Nat) :
    (ofCube w A).getLsbD j =
      (decide (j < w.bits) && A (j / w.laneBits % 5) (j / w.laneBits / 5) (j % w.laneBits)) := by
  have hstep : ∀ (S : BitVec 1600) (i : Nat),
      (if A (i / w.laneBits % 5) (i / w.laneBits / 5) (i % w.laneBits) then S ||| BitVec.twoPow 1600 i
        else S).getLsbD j =
      (S.getLsbD j || (decide (i < 1600) && decide (i = j) &&
        A (i / w.laneBits % 5) (i / w.laneBits / 5) (i % w.laneBits))) := by
    intro S i
    split
    · rename_i hA
      rw [BitVec.getLsbD_or, BitVec.getLsbD_twoPow, hA, Bool.and_true]
    · rename_i hA
      simp [hA]
  rw [ofCube, getLsbD_foldl_or hstep, any_range_eq (k := j) (by simp +contextual)]
  have hbits := bits_le w
  by_cases hj : j < w.bits
  · simp [hj, hj.trans_le hbits]
  · simp [hj]

/-- Lane k holds bit j exactly when k = j div W (R23). -/
theorem placeLane_index {W : Nat} {v : BitVec W} {k j : Nat} (h : (placeLane v k).getLsbD j = true) :
    k = j / W := by
  rw [getLsbD_placeLane] at h
  simp only [Bool.and_eq_true, decide_eq_true_eq] at h
  obtain ⟨⟨-, hle⟩, hbit⟩ := h
  have hlt : j - W * k < W := BitVec.lt_of_getLsbD hbit
  exact (Nat.div_eq_of_lt_le (by rw [Nat.mul_comm]; exact hle)
    (by rw [Nat.succ_mul, Nat.mul_comm]; omega)).symm

/-- Bit j of the array made of 25 lanes (R22, R23). -/
theorem getLsbD_fromLanes (w : Width) (a : Lanes w.laneBits) (j : Nat) :
    (fromLanes a).getLsbD j =
      (decide (j < w.bits) &&
        (a.lane (j / w.laneBits % 5) (j / w.laneBits / 5)).getLsbD (j % w.laneBits)) := by
  have hpos := laneBits_pos w
  have hbits := bits_le w
  have hdiv : j / w.laneBits < 25 ↔ j < w.bits := Nat.div_lt_iff_lt_mul hpos
  have hmod := Nat.mul_div_le j w.laneBits
  have hoff : j - w.laneBits * (j / w.laneBits) = j % w.laneBits := Nat.mod_def _ _ |>.symm
  have hstep : ∀ (S : BitVec 1600) (k : Nat), (S ||| placeLane (a.lane (k % 5) (k / 5)) k).getLsbD j =
      (S.getLsbD j || (placeLane (a.lane (k % 5) (k / 5)) k).getLsbD j) := fun _ _ => BitVec.getLsbD_or
  rw [fromLanes, getLsbD_foldl_or hstep, any_range_eq fun _ => placeLane_index, getLsbD_placeLane, hoff]
  by_cases hj : j < w.bits
  · simp [hdiv, hj, hj.trans_le hbits, hmod]
  · simp [hdiv, hj]

/-! ## The coordinates of a bit -/

/-- The linear position of the bit at (x, y, z) lies in the array, and gives back x, y and z (R21). -/
theorem linear_coordinates (w : Width) {x y z : Nat} (hx : x < 5) (hy : y < 5) (hz : z < w.laneBits) :
    w.laneBits * (5 * y + x) + z < w.bits ∧ (w.laneBits * (5 * y + x) + z) / w.laneBits % 5 = x ∧
      (w.laneBits * (5 * y + x) + z) / w.laneBits / 5 = y ∧
      (w.laneBits * (5 * y + x) + z) % w.laneBits = z := by
  have hpos := laneBits_pos w
  have hdiv : (w.laneBits * (5 * y + x) + z) / w.laneBits = 5 * y + x := by
    rw [Nat.mul_add_div hpos, Nat.div_eq_of_lt hz, Nat.add_zero]
  refine ⟨?_, by omega, by omega, by rw [Nat.mul_add_mod, Nat.mod_eq_of_lt hz]⟩
  exact (Nat.div_lt_iff_lt_mul hpos).1 (by omega)

/-- The bit at the coordinates of position j is bit j (R21). -/
theorem cubeBit_coordinates (w : Width) (S : BitVec 1600) (j : Nat) :
    cubeBit w S (j / w.laneBits % 5) (j / w.laneBits / 5) (j % w.laneBits) = S.getLsbD j := by
  rw [cubeBit, Nat.div_add_mod, Nat.div_add_mod]

theorem getLsbD_of_bits_le {w : Width} {S : BitVec 1600} (hS : S.toNat < 2 ^ w.bits) {j : Nat}
    (hj : w.bits ≤ j) : S.getLsbD j = false := by
  rw [← BitVec.testBit_toNat]
  exact Nat.testBit_lt_two_pow (hS.trans_le (Nat.pow_le_pow_right (by decide) hj))

/-! ## Lanes -/

theorem Lanes.lane_build {W : Nat} (f : Nat → Nat → BitVec W) {x y : Nat} (hx : x < 5) (hy : y < 5) :
    (Lanes.build f).lane x y = f x y := by
  interval_cases y <;> interval_cases x <;> rfl

/-- A state is its 25 lanes. -/
theorem Lanes.build_lane {W : Nat} (a : Lanes W) : Lanes.build a.lane = a := rfl

theorem Lanes.build_congr {W : Nat} {f g : Nat → Nat → BitVec W}
    (h : ∀ x y, x < 5 → y < 5 → f x y = g x y) : Lanes.build f = Lanes.build g := by
  simp [Lanes.build, Plane.build, h]

/-- Bit z of the lane at (x, y) of the state array is S[x,y,z] (R23). -/
theorem getLsbD_stateLane_eq_cubeBit (w : Width) (S : BitVec 1600) {x y z : Nat} (hz : z < w.laneBits) :
    (stateLane w.laneBits S (5 * y + x)).getLsbD z = cubeBit w S x y z := by
  rw [getLsbD_stateLane, cubeBit, decide_eq_true hz, Bool.true_and]

/-! ## The round trips -/

theorem cubeBit_ofCube (w : Width) (A : Nat → Nat → Nat → Bool) {x y z : Nat} (hx : x < 5) (hy : y < 5)
    (hz : z < w.laneBits) : cubeBit w (ofCube w A) x y z = A x y z := by
  obtain ⟨hlt, hx', hy', hz'⟩ := linear_coordinates w hx hy hz
  rw [cubeBit, getLsbD_ofCube, hx', hy', hz']
  simp [hlt]

theorem cubeBit_fromLanes (w : Width) (a : Lanes w.laneBits) {x y z : Nat} (hx : x < 5) (hy : y < 5)
    (hz : z < w.laneBits) : cubeBit w (fromLanes a) x y z = (a.lane x y).getLsbD z := by
  obtain ⟨hlt, hx', hy', hz'⟩ := linear_coordinates w hx hy hz
  rw [cubeBit, getLsbD_fromLanes, hx', hy', hz']
  simp [hlt]

theorem ofCube_cubeBit {w : Width} {S : BitVec 1600} (hS : S.toNat < 2 ^ w.bits) :
    ofCube w (cubeBit w S) = S := by
  refine BitVec.eq_of_getLsbD_eq fun j _ => ?_
  rw [getLsbD_ofCube, cubeBit_coordinates]
  by_cases hj : j < w.bits
  · simp [hj]
  · simp [hj, getLsbD_of_bits_le hS (Nat.le_of_not_lt hj)]

/-- The lanes of a state array and its cube make the same array. -/
theorem fromLanes_toLanes_eq_ofCube (w : Width) (S : BitVec 1600) :
    fromLanes (toLanes w.laneBits S) = ofCube w (cubeBit w S) := by
  refine BitVec.eq_of_getLsbD_eq fun j _ => ?_
  rw [getLsbD_fromLanes, getLsbD_ofCube]
  by_cases hj : j < w.bits
  · have hpos := laneBits_pos w
    have hdiv : j / w.laneBits < 25 := (Nat.div_lt_iff_lt_mul hpos).2 hj
    rw [toLanes, Lanes.lane_build _ (by omega) (by omega),
      getLsbD_stateLane_eq_cubeBit w S (Nat.mod_lt j hpos)]
  · simp [hj]

theorem toLanes_fromLanes (w : Width) (a : Lanes w.laneBits) : toLanes w.laneBits (fromLanes a) = a := by
  refine (Lanes.build_congr fun x y hx hy => ?_).trans a.build_lane
  refine BitVec.eq_of_getLsbD_eq fun z hz => ?_
  rw [getLsbD_stateLane_eq_cubeBit w _ hz, cubeBit_fromLanes w a hx hy hz]

/-- Settles O38: the views name the same bits, by their coordinates. -/
theorem stateViewsRoundTrip : Obligations.StateViewsRoundTrip := fun w =>
  ⟨fun S hS => ⟨ofCube_cubeBit hS, (fromLanes_toLanes_eq_ofCube w S).trans (ofCube_cubeBit hS)⟩,
    fun A _ _ _ hx hy hz => cubeBit_ofCube w A hx hy hz, toLanes_fromLanes w⟩

end Sys2Proof.Machine
end

section
/-! PROOFS. The memory rules: accesses the window does not support, and the bits of message and output bytes
(spec 20_memory.md R62, R67; 41_sponge.md R161). -/

namespace Sys2Proof.Machine

/-! ## Unsupported accesses -/

theorem supportedAccess_eq_false_iff {off size : Nat} :
    supportedAccess off size = false ↔ size ≠ 8 ∨ off % 8 ≠ 0 := by
  simp [supportedAccess, ← not_and_or]

/-- Settles O33: the offset is in the window, so the access stops at the check of its width and alignment. -/
theorem unsupportedAccessIsIgnored : Obligations.UnsupportedAccessIsIgnored := by
  intro s off size hoff hbad
  have hwindow := windowOffset_of_lt s.windowBase hoff
  have hunsupported := supportedAccess_eq_false_iff.2 hbad
  refine ⟨fun v => ?_, ?_⟩
  · simp [hostWrite, hwindow, hunsupported]
  · simp [hostRead, hwindow, hunsupported, State.answer]

/-! ## Bytes of output bits -/

theorem bitsToBytes_length (n : Nat) (bits : List Bool) : (bitsToBytes n bits).length = n := by
  induction n generalizing bits with
  | zero => rfl
  | succ n ih => rw [bitsToBytes, List.length_cons, ih]

theorem getLsbD_bitsToBytes (n : Nat) (bits : List Bool) (i : Nat) :
    ((bitsToBytes n bits).getD (i / 8) 0).getLsbD (i % 8) = (decide (i < 8 * n) && bits.getD i false) := by
  induction n generalizing bits i with
  | zero => simp [bitsToBytes]
  | succ n ih =>
    rw [bitsToBytes]
    by_cases hi : i < 8
    · have hbound : i < 8 * (n + 1) := by omega
      rw [Nat.div_eq_of_lt hi, Nat.mod_eq_of_lt hi, List.getD_cons_zero, getLsbD_bitsWord]
      simp [hi, hbound]
    · obtain ⟨j, rfl⟩ := Nat.exists_eq_add_of_le' (Nat.le_of_not_lt hi)
      have hbound : j + 8 < 8 * (n + 1) ↔ j < 8 * n := by omega
      rw [Nat.add_div_right j (by decide), Nat.add_mod_right, List.getD_cons_succ, ih]
      simp [hbound, Nat.add_comm 8 j]

/-! ## Bits of message bytes -/

theorem getD_wordBits {m : Nat} (v : BitVec m) (n i : Nat) :
    (wordBits v n).getD i false = (decide (i < n) && v.getLsbD i) := by
  by_cases hi : i < n <;> simp [wordBits, hi]

theorem bytesToBits_cons (b : BitVec 8) (rest : List (BitVec 8)) :
    bytesToBits (b :: rest) = wordBits b 8 ++ bytesToBits rest := rfl

theorem bytesToBits_length (bytes : List (BitVec 8)) : (bytesToBits bytes).length = 8 * bytes.length := by
  induction bytes with
  | nil => rfl
  | cons b rest ih =>
    rw [bytesToBits_cons, List.length_append, wordBits_length, ih, List.length_cons, Nat.mul_succ,
      Nat.add_comm]

theorem getD_bytesToBits (bytes : List (BitVec 8)) (i : Nat) :
    (bytesToBits bytes).getD i false = (bytes.getD (i / 8) 0).getLsbD (i % 8) := by
  induction bytes generalizing i with
  | nil => simp [bytesToBits]
  | cons b rest ih =>
    have hlen := wordBits_length b 8
    rw [bytesToBits_cons]
    by_cases hi : i < 8
    · rw [List.getD_append _ _ _ _ (hi.trans_eq hlen.symm), getD_wordBits, Nat.div_eq_of_lt hi,
        Nat.mod_eq_of_lt hi, List.getD_cons_zero]
      simp [hi]
    · obtain ⟨j, rfl⟩ := Nat.exists_eq_add_of_le' (Nat.le_of_not_lt hi)
      rw [List.getD_append_right _ _ _ _ (hlen.trans_le (Nat.le_add_left 8 j)), hlen, Nat.add_sub_cancel, ih,
        Nat.add_div_right j (by decide), Nat.add_mod_right, List.getD_cons_succ]

/-- Settles O49: the ceil(d/8) bytes reach past the d output bits, and beyond those a bit reads 0. -/
theorem bytesHoldTheirBitsInOrder : Obligations.BytesHoldTheirBitsInOrder := by
  refine ⟨fun bits => ⟨bitsToBytes_length _ bits, fun i => ?_⟩,
    fun bytes => ⟨bytesToBits_length bytes, getD_bytesToBits bytes⟩⟩
  rw [outputBytes, getLsbD_bitsToBytes]
  by_cases hi : i < bits.length
  · have hbound : i < 8 * ((bits.length + 7) / 8) := by omega
    simp [hbound]
  · rw [List.getD_eq_default _ _ (Nat.le_of_not_lt hi), Bool.and_false]

end Sys2Proof.Machine
end

section
/-! PROOFS. Command words and CFG words as packed fields: decode against encode, the ILLEGAL words and
SETCFG (spec 30_encoding.md R80 to R90; 10_state.md R35; 60_exceptions.md R202). -/

namespace Sys2Proof.Machine

/-! ## Words packed from fields -/

theorem fieldAt_ofNat {n m : Nat} (lo : Nat) (hm : m < 2 ^ n) :
    fieldAt (BitVec.ofNat n m) lo = BitVec.ofNat 64 m <<< lo := by
  have hfit : (BitVec.ofNat n m).setWidth 64 = BitVec.ofNat 64 m :=
    BitVec.eq_of_toNat_eq (by simp [Nat.mod_eq_of_lt hm])
  rw [fieldAt, hfit]

/-- A mask that is all ones at a field's place drops nothing of the field. -/
theorem fieldAt_and_mask {n : Nat} (v : BitVec n) {lo : Nat} {mask : Word}
    (hmask : mask.extractLsb' lo n = BitVec.allOnes n) : fieldAt v lo &&& mask = fieldAt v lo := by
  apply BitVec.eq_of_getLsbD_eq
  intro j hj
  rw [BitVec.getLsbD_and, getLsbD_fieldAt]
  by_cases hlo : lo ≤ j
  · by_cases hin : j - lo < n
    · have hone : mask.getLsbD (lo + (j - lo)) = true := by
        rw [← BitVec.getElem_extractLsb' hin, hmask, BitVec.getElem_allOnes]
      rw [Nat.add_sub_cancel' hlo] at hone
      rw [hone, Bool.and_true]
    · simp [BitVec.getLsbD_of_ge v _ (Nat.le_of_not_lt hin)]
  · simp [hlo]

/-- The four fields of R80 leave no bit of a command word out. -/
theorem word_ext {v w : Word} (hopc : fieldOpc v = fieldOpc w) (hnm1 : fieldNm1 v = fieldNm1 w)
    (hk : fieldK v = fieldK w) (hres : fieldReserved v = fieldReserved w) : v = w := by
  apply BitVec.eq_of_toNat_eq
  simp only [fieldOpc, fieldNm1, fieldK, fieldReserved, ← BitVec.toNat_inj, BitVec.extractLsb'_toNat,
    Nat.shiftRight_eq_div_pow] at hopc hnm1 hk hres
  omega

theorem fieldReserved_eq_zero_iff (v : Word) : fieldReserved v = 0 ↔ v.toNat < 2 ^ 15 := by
  simp only [fieldReserved, ← BitVec.toNat_inj, BitVec.extractLsb'_toNat, Nat.shiftRight_eq_div_pow,
    BitVec.ofNat_eq_ofNat, BitVec.toNat_ofNat]
  omega

/-! ## The fields of an encoding -/

/-- The NM1 field of a command's encoding: n - 1 where the command has a bit count (R82, R84). -/
def nm1Of : Instr → BitVec 6
  | .absorb n | .squeeze n => BitVec.ofNat 6 (n - 1)
  | _ => 0

/-- The K field of a command's encoding: its lane index where it has one (R83, R84). -/
def laneFieldOf : Instr → BitVec 5
  | .xorlane k | .loadlane k => BitVec.ofNat 5 k
  | _ => 0

theorem bitCountOk_iff {n : Nat} : bitCountOk n = true ↔ 1 ≤ n ∧ n ≤ 64 := by simp [bitCountOk]

theorem laneIndexOk_iff {k : Nat} : laneIndexOk k = true ↔ k < 25 := by simp [laneIndexOk]

/-- The encoding column of R85 as the fields of R80. -/
theorem encode_eq_fields {i : Instr} (h : i.wellFormed = true) :
    encode i = fieldAt i.opcode 0 ||| fieldAt (nm1Of i) 4 ||| fieldAt (laneFieldOf i) 10 := by
  cases i with
  | absorb n | squeeze n =>
    have hfit : n - 1 < 2 ^ 6 := by
      have hn := bitCountOk_iff.1 h
      omega
    rw [nm1Of, fieldAt_ofNat 4 hfit]
    simp [encode, laneFieldOf, Instr.opcode, fieldAt]
  | xorlane k | loadlane k =>
    have hfit : k < 2 ^ 5 := (laneIndexOk_iff.1 h).trans (by decide)
    rw [laneFieldOf, fieldAt_ofNat 10 hfit]
    simp [encode, nm1Of, Instr.opcode, fieldAt]
  | _ => rfl

theorem encode_fields {i : Instr} (h : i.wellFormed = true) :
    fieldOpc (encode i) = i.opcode ∧ fieldNm1 (encode i) = nm1Of i ∧
    fieldK (encode i) = laneFieldOf i ∧ fieldReserved (encode i) = 0 := by
  simp [encode_eq_fields h, fieldOpc, fieldNm1, fieldK, fieldReserved, BitVec.extractLsb'_or]

/-! ## The decoder -/

theorem usesNm1_eq_false_iff {opc : Nat} : usesNm1 opc = false ↔ opc ≠ 2 ∧ opc ≠ 4 := by simp [usesNm1]

theorem usesK_eq_true_iff {opc : Nat} : usesK opc = true ↔ opc = 6 ∨ opc = 7 := by simp [usesK]

theorem usesK_eq_false_iff {opc : Nat} : usesK opc = false ↔ opc ≠ 6 ∧ opc ≠ 7 := by simp [usesK]

/-- One of the five cases of R86 applies to the word, in the order in which R90 checks them. -/
def IllegalWord (v : Word) : Prop :=
  fieldReserved v ≠ 0 ∨ 9 ≤ (fieldOpc v).toNat ∨
  ((fieldNm1 v).toNat ≠ 0 ∧ usesNm1 (fieldOpc v).toNat = false) ∨
  ((fieldK v).toNat ≠ 0 ∧ usesK (fieldOpc v).toNat = false) ∨
  (usesK (fieldOpc v).toNat = true ∧ 25 ≤ (fieldK v).toNat)

theorem decode_of_legal {v : Word} (h : ¬IllegalWord v) :
    decode v = decodeOpcode (fieldOpc v).toNat (fieldNm1 v).toNat (fieldK v).toNat := by
  simp only [IllegalWord, not_or] at h
  obtain ⟨hres, hopc, hnm1, hk, hlane⟩ := h
  simp only [decode]
  rw [if_neg hres, if_neg hopc, if_neg hnm1, if_neg hk, if_neg hlane]

theorem decodeOpcode_ok {opc : Nat} (h : opc < 9) (nm1 k : Nat) : ∃ i, decodeOpcode opc nm1 k = .ok i := by
  interval_cases opc <;> exact ⟨_, rfl⟩

theorem decode_error_iff (v : Word) : (∃ e, decode v = .error e) ↔ IllegalWord v := by
  refine ⟨fun ⟨e, he⟩ => by_contra fun hlegal => ?_, fun h => ?_⟩
  · have hopc : (fieldOpc v).toNat < 9 := Nat.lt_of_not_le fun hopc => hlegal (.inr (.inl hopc))
    obtain ⟨i, hi⟩ := decodeOpcode_ok hopc (fieldNm1 v).toNat (fieldK v).toNat
    rw [decode_of_legal hlegal, hi] at he
    cases he
  · simp only [decode]
    split_ifs with hres hopc hnm1 hk hlane
    iterate 5 exact ⟨_, rfl⟩
    · exact absurd h (by simp only [IllegalWord, not_or]; exact ⟨hres, hopc, hnm1, hk, hlane⟩)

theorem not_illegalWord_of_decode {v : Word} {i : Instr} (h : decode v = .ok i) : ¬IllegalWord v := by
  rw [← decode_error_iff, h]
  rintro ⟨e, ⟨⟩⟩

/-- The opcode map hands the fields on as the command's opcode and operands, if a field the command does
not use holds 0. -/
theorem fields_of_decodeOpcode {opc nm1 k : Nat} {i : Instr} (h : decodeOpcode opc nm1 k = .ok i)
    (hnm1 : nm1 = 0 ∨ usesNm1 opc = true) (hk : k = 0 ∨ usesK opc = true) :
    i.opcode = BitVec.ofNat 4 opc ∧ nm1Of i = BitVec.ofNat 6 nm1 ∧ laneFieldOf i = BitVec.ofNat 5 k := by
  unfold decodeOpcode at h
  split at h <;> cases h <;> simp_all [usesNm1, usesK, Instr.opcode, nm1Of, laneFieldOf]

theorem fields_of_decode {v : Word} {i : Instr} (h : decode v = .ok i) :
    fieldOpc v = i.opcode ∧ fieldNm1 v = nm1Of i ∧ fieldK v = laneFieldOf i ∧ fieldReserved v = 0 := by
  have hlegal := not_illegalWord_of_decode h
  rw [decode_of_legal hlegal] at h
  simp only [IllegalWord, not_or, not_and_or, not_not, Bool.not_eq_false] at hlegal
  obtain ⟨hres, -, hnm1, hk, -⟩ := hlegal
  obtain ⟨hopc, hnm1, hk⟩ := fields_of_decodeOpcode h hnm1 hk
  rw [BitVec.ofNat_toNat, BitVec.setWidth_eq] at hopc hnm1 hk
  exact ⟨hopc.symm, hnm1.symm, hk.symm, hres⟩

theorem decodeOpcode_of_wellFormed {i : Instr} (h : i.wellFormed = true) :
    decodeOpcode i.opcode.toNat (nm1Of i).toNat (laneFieldOf i).toNat = .ok i := by
  cases i with
  | absorb n | squeeze n =>
    have hn := bitCountOk_iff.1 h
    have hback : (n - 1) % 64 + 1 = n := by omega
    simp [decodeOpcode, Instr.opcode, nm1Of, hback]
  | xorlane k | loadlane k =>
    have hk := laneIndexOk_iff.1 h
    have hback : k % 32 = k := by omega
    simp [decodeOpcode, Instr.opcode, laneFieldOf, hback]
  | _ => rfl

theorem not_illegalWord_encode {i : Instr} (h : i.wellFormed = true) : ¬IllegalWord (encode i) := by
  obtain ⟨hopc, hnm1, hk, hres⟩ := encode_fields h
  rw [IllegalWord, hopc, hnm1, hk, hres]
  cases i with
  | absorb n | squeeze n => simp [Instr.opcode, laneFieldOf, usesNm1, usesK]
  | xorlane k | loadlane k =>
    have hk := laneIndexOk_iff.1 h
    have hback : k % 32 = k := by omega
    simp [Instr.opcode, nm1Of, laneFieldOf, usesNm1, usesK, hback, hk]
  | _ => decide

theorem decode_encode {i : Instr} (h : i.wellFormed = true) : decode (encode i) = .ok i := by
  obtain ⟨hopc, hnm1, hk, -⟩ := encode_fields h
  rw [decode_of_legal (not_illegalWord_encode h), hopc, hnm1, hk]
  exact decodeOpcode_of_wellFormed h

theorem encode_of_decode {v : Word} {i : Instr} (h : decode v = .ok i) : encode i = v := by
  obtain ⟨hopc, hnm1, hk, hres⟩ := fields_of_decode h
  obtain ⟨hopc', hnm1', hk', hres'⟩ := encode_fields (wellFormed_of_decode h)
  exact word_ext (hopc'.trans hopc.symm) (hnm1'.trans hnm1.symm) (hk'.trans hk.symm)
    (hres'.trans hres.symm)

theorem exists_of_nm1Of_ne_zero {i : Instr} (h : nm1Of i ≠ 0) : ∃ n, i = .absorb n ∨ i = .squeeze n := by
  cases i with
  | absorb n => exact ⟨n, .inl rfl⟩
  | squeeze n => exact ⟨n, .inr rfl⟩
  | _ => exact absurd rfl h

theorem exists_of_laneFieldOf_ne_zero {i : Instr} (h : laneFieldOf i ≠ 0) :
    ∃ k, i = .xorlane k ∨ i = .loadlane k := by
  cases i with
  | xorlane k => exact ⟨k, .inl rfl⟩
  | loadlane k => exact ⟨k, .inr rfl⟩
  | _ => exact absurd rfl h

/-- Settles O1: a word is its four fields, and decode and encode agree on each of them. -/
theorem oneLegalEncodingPerCommand : Obligations.OneLegalEncodingPerCommand := by
  refine ⟨fun v i => ⟨fun h => ⟨wellFormed_of_decode h, encode_of_decode h⟩, ?_⟩, fun v i h hnm1 => ?_,
    fun v i h hk => ?_⟩
  · rintro ⟨hwf, rfl⟩
    exact decode_encode hwf
  · obtain ⟨-, hfield, -, -⟩ := fields_of_decode h
    exact exists_of_nm1Of_ne_zero (hfield ▸ hnm1)
  · obtain ⟨-, -, hfield, -⟩ := fields_of_decode h
    exact exists_of_laneFieldOf_ne_zero (hfield ▸ hk)

/-! ## The record of an ILLEGAL word -/

theorem illegalWord_of_ready (v : Word) {s : State} (h : s.Ready) :
    s.illegalWord v = { s with err := .illegal, erropc := fieldOpc v } := by
  obtain ⟨hidle, herr⟩ := h
  simp [State.illegalWord, State.reject, State.busy, hidle, herr]

/-- Settles O2: the checks of R90 are the cases of R86, and a Ready block records the rejection. -/
theorem illegalWordsExactlyAndTheirRecord : Obligations.IllegalWordsExactlyAndTheirRecord := by
  refine fun v => ⟨?_, fun ⟨e, he⟩ s hs => ?_⟩
  · rw [decode_error_iff, IllegalWord, Ne, fieldReserved_eq_zero_iff, Nat.not_lt, or_left_comm,
      usesNm1_eq_false_iff, usesK_eq_false_iff, usesK_eq_true_iff]
    rfl
  · rw [issueWord_of_illegal he, illegalWord_of_ready v hs]
    rfl

/-! ## SETCFG -/

theorem setcfgWord_eq_fields {mode nr rate sfxlen sfx : Nat} (hmode : mode < 2 ^ 3) (hnr : nr < 2 ^ 5)
    (hrate : rate < 2 ^ 11) (hsfxlen : sfxlen < 2 ^ 4) (hsfx : sfx < 2 ^ 8) :
    setcfgWord mode nr rate sfxlen sfx =
      fieldAt (BitVec.ofNat 3 mode) 0 ||| fieldAt (BitVec.ofNat 5 nr) 4 |||
        fieldAt (BitVec.ofNat 11 rate) 16 ||| fieldAt (BitVec.ofNat 4 sfxlen) 28 |||
        fieldAt (BitVec.ofNat 8 sfx) 32 := by
  rw [fieldAt_ofNat 0 hmode, fieldAt_ofNat 4 hnr, fieldAt_ofNat 16 hrate, fieldAt_ofNat 28 hsfxlen,
    fieldAt_ofNat 32 hsfx, BitVec.shiftLeft_zero, setcfgWord]

/-- Settles O37: SETCFG's word packs the operands as fields, each inside the store mask. -/
theorem setcfgFillsTheCfgFields : Obligations.SetcfgFillsTheCfgFields := by
  intro mode nr rate sfxlen sfx h
  simp only [AsmLine.wellFormed, Bool.and_eq_true, decide_eq_true_eq] at h
  obtain ⟨⟨⟨⟨hmode, hnr⟩, hrate⟩, hsfxlen⟩, hsfx⟩ := h
  refine ⟨_, rfl, ?_⟩
  rw [setcfgWord_eq_fields hmode hnr hrate hsfxlen hsfx]
  constructor
  · simp (disch := decide) only [BitVec.and_or_distrib_right, fieldAt_and_mask]
  · simp [cfgMode, cfgNr, cfgRate, cfgSfxlen, cfgSfx, BitVec.extractLsb'_or, Nat.mod_eq_of_lt, hmode, hnr,
      hrate, hsfxlen, hsfx]

/-! ## Words of the encoding table -/

/-- Settles O3: closed words, run through the decoder. -/
theorem wordsFromTheTableDecode : Obligations.WordsFromTheTableDecode := by
  unfold Obligations.WordsFromTheTableDecode
  decide

end Sys2Proof.Machine
end

section
/-! PROOFS. The ρ offsets and the round constants (spec 40_keccak_p.md R104, R108, R109, R115 to R117). -/

namespace Sys2Proof.Machine

/-! ## The ρ offsets -/

/-- Settles O41: the walk and the tables are closed. -/
theorem rhoOffsetsAreTheTable : Obligations.RhoOffsetsAreTheTable := by
  unfold Obligations.RhoOffsetsAreTheTable
  decide

/-! ## The round constants -/

/-- Bit z of RC[i] (R109). -/
theorem getLsbD_roundConstant {W : Nat} (L i : Nat) {z : Nat} (hz : z < W) :
    (roundConstant W L i).getLsbD z =
      (List.range (L + 1)).any fun j => z == 2 ^ j - 1 && rcBit (j + 7 * i) := by
  have hstep : ∀ (v : BitVec W) (j : Nat),
      (if rcBit (j + 7 * i) then v ||| BitVec.twoPow W (2 ^ j - 1) else v).getLsbD z =
      (v.getLsbD z || (z == 2 ^ j - 1 && rcBit (j + 7 * i))) := by
    intro v j
    have hplace : (BitVec.twoPow W (2 ^ j - 1)).getLsbD z = (z == 2 ^ j - 1) := by
      rw [BitVec.getLsbD_twoPow]
      by_cases hp : z = 2 ^ j - 1
      · simp [← hp, hz]
      · simp [hp, Ne.symm hp]
    split
    · rename_i hrc
      rw [BitVec.getLsbD_or, hplace, hrc, Bool.and_true]
    · rename_i hrc
      rw [Bool.eq_false_of_not_eq_true hrc, Bool.and_false, Bool.or_false]
  rw [roundConstant, getLsbD_foldl_or hstep, BitVec.ofNat_eq_ofNat, BitVec.getLsbD_zero, Bool.false_or]

/-- The positions 2^j − 1 below W are those with j ≤ L, so the widths share their bits (R109, R117). -/
theorem roundConstant_eq_setWidth (w : Width) (i : Nat) :
    roundConstant w.laneBits w.log i = (roundConstant 64 6 i).setWidth w.laneBits := by
  refine BitVec.eq_of_getLsbD_eq fun z hz => ?_
  have hlog : w.log ≤ 6 := by cases w <;> decide
  have hz64 : z < 64 := hz.trans_le (laneBits_le w)
  rw [BitVec.getLsbD_setWidth, decide_eq_true hz, Bool.true_and, getLsbD_roundConstant _ _ hz,
    getLsbD_roundConstant _ _ hz64, Bool.eq_iff_iff]
  simp only [List.any_eq_true, List.mem_range, Bool.and_eq_true, beq_iff_eq]
  constructor
  · rintro ⟨j, hj, hbit⟩
    exact ⟨j, by omega, hbit⟩
  · rintro ⟨j, -, rfl, hrc⟩
    have hpow : 2 ^ j ≤ 2 ^ w.log := by rw [← laneBits_eq]; omega
    have hj : j ≤ w.log := (Nat.pow_le_pow_iff_right (by decide)).1 hpow
    exact ⟨j, by omega, rfl, hrc⟩

/-- Settles O42: rc reads t mod 255, the table is closed, and the narrower constants are truncations. -/
theorem roundConstantsAreTheTable : Obligations.RoundConstantsAreTheTable := by
  refine ⟨fun t => ?_, by decide +kernel, fun w i => ?_⟩
  · rw [rcBit, rcBit, Nat.add_mod_right]
  · rw [roundConstant_eq_setWidth, BitVec.toNat_setWidth]

end Sys2Proof.Machine
end

section
/-! PROOFS. The lane form of the permutation is the bit-level form: each step, a round, and KeccakP(B, nr)
(spec 40_keccak_p.md R100 to R114). -/

namespace Sys2Proof.Machine

/-! ## Arrays of lanes and cubes -/

/-- The lanes and the cube make the same array if each lane holds the cube's bits (R22, R23). -/
theorem fromLanes_eq_ofCube {w : Width} {a : Lanes w.laneBits} {A : Nat → Nat → Nat → Bool}
    (h : ∀ x y z, x < 5 → y < 5 → z < w.laneBits → (a.lane x y).getLsbD z = A x y z) :
    fromLanes a = ofCube w A := by
  refine BitVec.eq_of_getLsbD_eq fun j _ => ?_
  rw [getLsbD_fromLanes, getLsbD_ofCube]
  by_cases hj : j < w.bits
  · have hpos := laneBits_pos w
    have hdiv : j / w.laneBits < 25 := (Nat.div_lt_iff_lt_mul hpos).2 hj
    rw [h _ _ _ (by omega) (by omega) (Nat.mod_lt j hpos)]
  · simp [hj]

theorem Plane.lane_build {W : Nat} (f : Nat → BitVec W) {x : Nat} (hx : x < 5) :
    (Plane.build f).lane x = f x := by
  interval_cases x <;> rfl

/-! ## Rotation -/

/-- ROTL moves bit (z − n) mod W to bit z (R114). -/
theorem getLsbD_rotateLeft_eq {W n z : Nat} (v : BitVec W) (hn : n ≤ W) (hz : z < W) :
    (v.rotateLeft n).getLsbD z = v.getLsbD ((z + (W - n)) % W) := by
  rcases hn.lt_or_eq with hlt | rfl
  · rw [BitVec.getLsbD_rotateLeft_of_le hlt]
    by_cases hzn : z < n
    · have hsum : (z + (W - n)) % W = W - n + z := by rw [Nat.mod_eq_of_lt (by omega), Nat.add_comm]
      simp [hzn, hsum]
    · have hsum : (z + (W - n)) % W = z - n := by
        rw [show z + (W - n) = z - n + W by omega, Nat.add_mod_right, Nat.mod_eq_of_lt (by omega)]
      simp [hzn, hsum, hz]
  · simp [Nat.mod_eq_of_lt hz, hz]

theorem rhoOffset_lt (w : Width) (x y : Nat) : rhoOffset w.laneBits x y < w.laneBits :=
  Nat.mod_lt _ (laneBits_pos w)

/-! ## The steps -/

/-- ι changes lane (0,0) only (R110). -/
theorem lane_iota {W : Nat} (rc : BitVec W) (a : Lanes W) {x y : Nat} (hx : x < 5) (hy : y < 5) :
    (iota rc a).lane x y = if x = 0 ∧ y = 0 then a.lane x y ^^^ rc else a.lane x y := by
  interval_cases y <;> interval_cases x <;> rfl

section
variable {w : Width} (a : Lanes w.laneBits) {x z : Nat}

theorem getLsbD_thetaC (hx : x < 5) (hz : z < w.laneBits) :
    ((thetaC a).lane x).getLsbD z = cubeC w (fromLanes a) x z := by
  simp [thetaC, Plane.lane_build, cubeC, cubeBit_fromLanes, hx, hz]

theorem getLsbD_thetaD (hx : x < 5) (hz : z < w.laneBits) :
    ((thetaD (thetaC a)).lane x).getLsbD z = cubeD w (fromLanes a) x z := by
  have hpos := laneBits_pos w
  rw [thetaD, Plane.lane_build _ hx, BitVec.getLsbD_xor, getLsbD_rotateLeft_eq _ hpos hz,
    getLsbD_thetaC a (by omega) hz, getLsbD_thetaC a (by omega) (Nat.mod_lt _ hpos), cubeD]

theorem fromLanes_theta : fromLanes (theta a) = thetaCube w (fromLanes a) :=
  fromLanes_eq_ofCube fun x y z hx hy hz => by
    rw [theta, Lanes.lane_build _ hx hy, BitVec.getLsbD_xor, getLsbD_thetaD a hx hz,
      cubeBit_fromLanes w a hx hy hz]

theorem fromLanes_rho : fromLanes (rho a) = rhoCube w (fromLanes a) :=
  fromLanes_eq_ofCube fun x y z hx hy hz => by
    rw [rho, Lanes.lane_build _ hx hy, getLsbD_rotateLeft_eq _ (rhoOffset_lt w x y).le hz,
      cubeBit_fromLanes w a hx hy (Nat.mod_lt _ (laneBits_pos w))]

theorem fromLanes_pi : fromLanes (pi a) = piCube w (fromLanes a) :=
  fromLanes_eq_ofCube fun x y z hx hy hz => by
    rw [pi, Lanes.lane_build _ hx hy, cubeBit_fromLanes w a (by omega) hx hz]

theorem fromLanes_chi : fromLanes (chi a) = chiCube w (fromLanes a) :=
  fromLanes_eq_ofCube fun x y z hx hy hz => by
    rw [chi, Lanes.lane_build _ hx hy, cubeBit_fromLanes w a hx hy hz,
      cubeBit_fromLanes w a (by omega) hy hz, cubeBit_fromLanes w a (by omega) hy hz]
    simp [hz]

theorem fromLanes_iota (i : Nat) :
    fromLanes (iota (roundConstant w.laneBits w.log i) a) = iotaCube w i (fromLanes a) :=
  fromLanes_eq_ofCube fun x y z hx hy hz => by
    rw [lane_iota _ a hx hy, cubeBit_fromLanes w a hx hy hz]
    split
    · rename_i h0
      rw [BitVec.getLsbD_xor, getLsbD_roundConstant _ _ hz]
      simp [h0, cubeRC]
    · rename_i h0
      have h0' : (x == 0 && y == 0) = false := by simpa using h0
      rw [h0', Bool.false_and, Bool.xor_false]

/-! ## Rounds -/

theorem fromLanes_rnd (i : Nat) : fromLanes (rnd w.log i a) = rndCube w i (fromLanes a) := by
  rw [rnd, fromLanes_iota, fromLanes_chi, fromLanes_pi, fromLanes_rho, fromLanes_theta, rndCube]

end

theorem fromLanes_rounds {w : Width} (n i : Nat) (a : Lanes w.laneBits) :
    fromLanes (rounds w.log n i a) =
      (List.range n).foldl (fun A t => rndCube w (i + t) A) (fromLanes a) := by
  induction n generalizing i a with
  | zero => rfl
  | succ n ih =>
    rw [rounds, ih, fromLanes_rnd, List.range_succ_eq_map, List.foldl_cons, List.foldl_map]
    simp only [Nat.add_zero, Nat.add_assoc, Nat.add_comm 1, Nat.succ_eq_add_one]

theorem fromLanes_toLanes {w : Width} {S : BitVec 1600} (hS : S.toNat < 2 ^ w.bits) :
    fromLanes (toLanes w.laneBits S) = S :=
  (fromLanes_toLanes_eq_ofCube w S).trans (ofCube_cubeBit hS)

/-- Settles O39: each step commutes with `fromLanes`, and an array of B bits is made of its lanes. -/
theorem laneStepsAreTheBitSteps : Obligations.LaneStepsAreTheBitSteps := by
  intro w S hS
  rw [fromLanes_theta, fromLanes_rho, fromLanes_pi, fromLanes_chi, fromLanes_toLanes hS]
  exact ⟨rfl, rfl, rfl, rfl, fun i => by rw [fromLanes_iota, fromLanes_toLanes hS]⟩

/-- Settles O40: by induction on the rounds, which commute with `fromLanes` one by one. -/
theorem engineComputesKeccakP : Obligations.EngineComputesKeccakP := by
  intro w nr S hS _ _
  rw [keccakP, fromLanes_rounds, fromLanes_toLanes hS, Width.nrmax]

end Sys2Proof.Machine
end

section
/-! PROOFS. The engine commands: the lane a command writes, and PERMUTE, XORLANE and LOADLANE at their
completion (spec 40_keccak_p.md R120 to R122). -/

namespace Sys2Proof.Machine

/-! ## One lane of the state array -/

/-- Lane k lies inside the array, so a lane placed there keeps all its bits (R20, R23). -/
theorem getLsbD_placeLane_inside {w : Width} (v : BitVec w.laneBits) {k j : Nat} (hk : k < 25)
    (hj : w.laneBits * k ≤ j ∧ j < w.laneBits * k + w.laneBits) :
    (placeLane v k).getLsbD j = v.getLsbD (j - w.laneBits * k) := by
  obtain ⟨hle, hlt⟩ := hj
  have hfit : j < 1600 :=
    calc j < w.laneBits * (k + 1) := hlt
      _ ≤ 64 * 25 := Nat.mul_le_mul (laneBits_le w) hk
  rw [getLsbD_placeLane, decide_eq_true hfit, decide_eq_true hle, Bool.and_self, Bool.true_and]

/-- A lane placed in the array has no bit outside its place (R23). -/
theorem getLsbD_placeLane_outside {W : Nat} (v : BitVec W) {k j : Nat}
    (hj : ¬(W * k ≤ j ∧ j < W * k + W)) : (placeLane v k).getLsbD j = false := by
  rw [getLsbD_placeLane]
  by_cases hle : W * k ≤ j
  · rw [BitVec.getLsbD_of_ge v _ (by omega), Bool.and_false]
  · rw [decide_eq_false hle, Bool.and_false, Bool.false_and]

/-- The lane operand of a command is DIN below bit W (R64). -/
theorem getLsbD_laneOperand (w : Width) (din : Word) {z : Nat} (hz : z < w.laneBits) :
    (laneOperand w din).getLsbD z = din.getLsbD z := by
  simp [laneOperand, hz]

/-- Bit j of S after XORLANE k (R121). -/
theorem getLsbD_xorLane (w : Width) {k : Nat} (hk : k < 25) (din : Word) (S : BitVec 1600) (j : Nat) :
    (xorLane w k (laneOperand w din) S).getLsbD j =
      (S.getLsbD j ^^
        (decide (w.laneBits * k ≤ j) && decide (j < w.laneBits * k + w.laneBits) &&
          din.getLsbD (j - w.laneBits * k))) := by
  rw [xorLane, BitVec.getLsbD_xor, ← Bool.decide_and]
  by_cases hj : w.laneBits * k ≤ j ∧ j < w.laneBits * k + w.laneBits
  · rw [getLsbD_placeLane_inside _ hk hj, getLsbD_laneOperand w din (by omega), decide_eq_true hj,
      Bool.true_and]
  · rw [getLsbD_placeLane_outside _ hj, decide_eq_false hj, Bool.false_and]

/-- Bit j of S after LOADLANE k (R122). -/
theorem getLsbD_loadLane (w : Width) {k : Nat} (hk : k < 25) (din : Word) (S : BitVec 1600) (j : Nat) :
    (loadLane w k (laneOperand w din) S).getLsbD j =
      if w.laneBits * k ≤ j ∧ j < w.laneBits * k + w.laneBits then din.getLsbD (j - w.laneBits * k)
      else S.getLsbD j := by
  rw [loadLane, BitVec.getLsbD_or, BitVec.getLsbD_and, BitVec.getLsbD_not]
  split
  · rename_i hj
    have hz : j - w.laneBits * k < w.laneBits := by omega
    rw [getLsbD_placeLane_inside _ hk hj, getLsbD_placeLane_inside _ hk hj, getLsbD_laneOperand w din hz,
      BitVec.getLsbD_allOnes, decide_eq_true hz, Bool.not_true, Bool.and_false, Bool.and_false,
      Bool.false_or]
  · rename_i hj
    rw [getLsbD_placeLane_outside _ hj, getLsbD_placeLane_outside _ hj, Bool.or_false, Bool.not_false,
      Bool.and_true]
    by_cases hlt : j < 1600
    · rw [decide_eq_true hlt, Bool.and_true]
    · rw [BitVec.getLsbD_of_ge S j (Nat.le_of_not_lt hlt), Bool.false_and]

/-! ## The commands -/

/-- A command that a block takes, passes its checks and has LAT = 0 applies its effect at once (R233). -/
theorem exec_accepted_at_once {i : Instr} {s : State} (hs : s.Ready) (hl : s.AtOnce)
    (hacc : commandError i s.operands s = .none) :
    exec i s = .next (effectOf i s.operands s.popLatency) := by
  obtain ⟨hidle, herr⟩ := hs
  rw [exec_eq_issue, issue_accepted _ hidle (.inl herr) hacc, accept_at_once _ _ hl]

theorem legalNr_iff {w : Width} {nr : Nat} : legalNr w nr = true ↔ 1 ≤ nr ∧ nr ≤ w.nrmax := by
  simp [legalNr]

/-- Settles O13: XORLANE has no check but PHASE, and its lane's bits are those of `placeLane`. -/
theorem xorlaneFlipsOneLane : Obligations.XorlaneFlipsOneLane := by
  intro s k hk hs hl hphase
  have hacc : commandError (.xorlane k) s.operands s = .none := by
    simp [commandError, phaseAllows, hphase]
  exact ⟨_, exec_accepted_at_once hs hl hacc, rfl, getLsbD_xorLane s.width hk s.din s.S⟩

/-- Settles O14: LOADLANE has no check but PHASE, and clears the lane before it places DIN there. -/
theorem loadlaneOverwritesOneLane : Obligations.LoadlaneOverwritesOneLane := by
  intro s k hk hs hl hphase
  have hacc : commandError (.loadlane k) s.operands s = .none := by
    simp [commandError, phaseAllows, hphase]
  exact ⟨_, exec_accepted_at_once hs hl hacc, rfl, getLsbD_loadLane s.width hk s.din s.S⟩

/-- Settles O12: PHASE and CFG.NR are PERMUTE's only checks. -/
theorem permuteCompletes : Obligations.PermuteCompletes := by
  intro s hs hl hphase hlow hhigh
  have hnr : legalNr s.width (cfgNr s.cfg).toNat = true := legalNr_iff.2 ⟨hlow, hhigh⟩
  have hacc : commandError .permute s.operands s = .none := by
    simp [commandError, phaseAllows, hphase, permuteError, State.operands, hnr]
  exact exec_accepted_at_once hs hl hacc

end Sys2Proof.Machine
end

section
/-! PROOFS. Padding, AbsorbBit, and the absorption loop (spec 41_sponge.md R140 to R143, R147, R149). -/

namespace Sys2Proof.Machine

/-! ## pad10*1 -/

theorem coe_padZeros {r : Nat} (hr : 1 ≤ r) (m : Nat) :
    (padZeros r m : Int) = (-(m : Int) - 2) % (r : Int) :=
  Int.toNat_of_nonneg (Int.emod_nonneg _ (by omega))

theorem padZeros_lt {r : Nat} (hr : 1 ≤ r) (m : Nat) : padZeros r m < r := by
  have hlt := Int.emod_lt_of_pos (-(m : Int) - 2) (b := (r : Int)) (by omega)
  rw [← coe_padZeros hr] at hlt
  omega

theorem dvd_add_padZeros {r : Nat} (hr : 1 ≤ r) (m : Nat) : r ∣ m + padZeros r m + 2 := by
  have hdvd := Int.dvd_self_sub_emod (x := -(m : Int) - 2) (m := (r : Int))
  rw [← coe_padZeros hr] at hdvd
  have hneg : (((m + padZeros r m + 2 : Nat)) : Int) = -(-(m : Int) - 2 - padZeros r m) := by
    push_cast
    ring
  rw [← Int.natCast_dvd_natCast, hneg]
  exact (Int.dvd_neg).2 hdvd

/-- The two padding bits and the zeros between them fill the block: only one count of zeros does (R142). -/
theorem padZeros_eq {r m j : Nat} (hj : j < r) (h : r ∣ m + j + 2) : padZeros r m = j := by
  have hr : 1 ≤ r := by omega
  have hmod : m + 2 + padZeros r m ≡ m + 2 + j [MOD r] := by
    rw [Nat.add_right_comm m 2, Nat.add_right_comm m 2]
    exact ((Nat.modEq_zero_iff_dvd).2 (dvd_add_padZeros hr m)).trans ((Nat.modEq_zero_iff_dvd).2 h).symm
  exact (Nat.ModEq.add_left_cancel' _ hmod).eq_of_lt_of_lt (padZeros_lt hr m) hj

/-- The padding depends on the length modulo r only (R142). -/
theorem padZeros_congr {r m m' : Nat} (hr : 1 ≤ r) (h : m ≡ m' [MOD r]) :
    padZeros r m = padZeros r m' :=
  padZeros_eq (padZeros_lt hr m')
    (((h.add_right _).add_right 2).dvd_iff dvd_rfl |>.2 (dvd_add_padZeros hr m'))

theorem pad_congr {r m m' : Nat} (hr : 1 ≤ r) (h : m ≡ m' [MOD r]) : pad r m = pad r m' := by
  rw [pad, pad, padZeros_congr hr h]

/-- A padded string is a whole number of blocks (R142). -/
theorem dvd_length_append_pad {r : Nat} (hr : 1 ≤ r) (N : List Bool) :
    r ∣ (N ++ pad r N.length).length := by
  have hlen : (N ++ pad r N.length).length = N.length + padZeros r N.length + 2 := by
    simp [pad]
    omega
  exact hlen ▸ dvd_add_padZeros hr N.length

/-- Settles O45: each corner case names the one count of zeros that fills its block. -/
theorem padIsTenStarOne : Obligations.PadIsTenStarOne := by
  intro r m hr
  have hcorner : ∀ k j, m % r = k → j < r → r ∣ k + j + 2 → padZeros r m = j := fun k j hk hj hdvd =>
    (padZeros_congr hr (Nat.mod_modEq m r).symm).trans (padZeros_eq hj (hk ▸ hdvd))
  refine ⟨padZeros r m, rfl, padZeros_lt hr m, Nat.mod_eq_zero_of_dvd (dvd_add_padZeros hr m),
    coe_padZeros hr m, fun h2 hm => ?_, fun hm => ?_, fun h1 => ?_, fun hm h2 => ?_⟩
  · exact hcorner (r - 2) 0 hm (by omega) ⟨1, by omega⟩
  · exact hcorner (r - 1) (r - 1) hm (by omega) ⟨2, by omega⟩
  · have hlt := padZeros_lt hr m
    omega
  · exact hcorner 0 (r - 2) (by simp [hm]) (by omega) ⟨1, by omega⟩

/-! ## AbsorbBit -/

/-- S with the bit v XORed in at position p. -/
def xorBit (S : BitVec 1600) (p : Nat) (v : Bool) : BitVec 1600 :=
  if v then S ^^^ BitVec.twoPow 1600 p else S

theorem getLsbD_xorBit (S : BitVec 1600) {p : Nat} (hp : p < 1600) (v : Bool) (j : Nat) :
    (xorBit S p v).getLsbD j = (S.getLsbD j ^^ (v && decide (j = p))) := by
  cases v with
  | false => simp [xorBit]
  | true => simp [xorBit, hp, eq_comm (a := j)]

section
variable {w : Width} {r : BitVec 11} (nr : BitVec 5)

/-- Inside a block AbsorbBit XORs the bit in and moves APOS on (R147). -/
theorem absorbBit_inside {a : Absorber} (v : Bool) (h : a.apos + 1 ≠ r) :
    absorbBit w r nr a v = ⟨xorBit a.S a.apos.toNat v, a.apos + 1⟩ := if_neg h

/-- The last bit of a block permutes (R147). -/
theorem absorbBit_last {a : Absorber} (v : Bool) (h : a.apos + 1 = r) :
    absorbBit w r nr a v = ⟨keccakP w nr.toNat (xorBit a.S a.apos.toNat v), 0⟩ := if_pos h

end

/-- APOS + 1 does not wrap around below RACT. -/
theorem toNat_add_one_of_lt {p r : BitVec 11} (h : p.toNat < r.toNat) :
    (p + 1).toNat = p.toNat + 1 := by
  bv_omega

/-- A position below RACT fits APOS and SPOS. -/
theorem toNat_ofNat_of_lt {n : Nat} {r : BitVec 11} (h : n < r.toNat) :
    (BitVec.ofNat 11 n).toNat = n := by
  rw [BitVec.toNat_ofNat, Nat.mod_eq_of_lt (h.trans r.isLt)]

/-- Settles O43: AbsorbBit XORs the bit in, and the position decides whether it permutes. -/
theorem absorbBitRule : Obligations.AbsorbBitRule := by
  intro w r nr a v hlt hr
  have hbits := bits_le w
  have hnext := toNat_add_one_of_lt hlt
  refine ⟨xorBit a.S a.apos.toNat v, getLsbD_xorBit a.S (by omega) v, fun hne => ?_, fun heq => ?_⟩
  · have hne' : a.apos + 1 ≠ r := fun h => hne (by rw [← hnext, h])
    rw [absorbBit_inside nr v hne']
    exact ⟨rfl, hnext⟩
  · rw [absorbBit_last nr v (BitVec.eq_of_toNat_eq (hnext.trans heq))]
    exact ⟨rfl, rfl⟩

/-! ## A block, and the loop over the blocks -/

/-- XORing in a string with one more bit XORs in that bit at its place. -/
theorem xor_bitsWord_concat (S : BitVec 1600) {P : List Bool} (h : P.length < 1600) (v : Bool) :
    S ^^^ bitsWord 1600 (P ++ [v]) = xorBit (S ^^^ bitsWord 1600 P) P.length v := by
  refine BitVec.eq_of_getLsbD_eq fun j hj => ?_
  rw [getLsbD_xorBit _ h, BitVec.getLsbD_xor, BitVec.getLsbD_xor, getLsbD_bitsWord, getLsbD_bitsWord,
    Bool.xor_assoc]
  rcases Nat.lt_trichotomy j P.length with hlt | rfl | hgt
  · simp [hj, List.getElem?_append_left, hlt, hlt.ne]
  · simp [hj]
  · simp [hgt.ne', hgt, hgt.le]

section
variable {w : Width} {r : BitVec 11} (nr : BitVec 5)

/-- Less than a block, from the start of a block, is XORed in as one word. -/
theorem absorbBits_of_lt_block (hr : r.toNat < w.bits) (S : BitVec 1600) {P : List Bool}
    (h : P.length < r.toNat) :
    absorbBits w r nr ⟨S, 0⟩ P = ⟨S ^^^ bitsWord 1600 P, BitVec.ofNat 11 P.length⟩ := by
  have hbits := bits_le w
  induction P using List.reverseRecOn with
  | nil => simp [absorbBits_nil, bitsWord]
  | append_singleton P v ih =>
    rw [List.length_append, List.length_singleton] at h ⊢
    have hpos := toNat_ofNat_of_lt (n := P.length) (r := r) (by omega)
    have hne : BitVec.ofNat 11 P.length + 1 ≠ r := fun heq => by
      have hnext := toNat_add_one_of_lt (p := BitVec.ofNat 11 P.length) (r := r) (by omega)
      rw [heq] at hnext
      omega
    rw [absorbBits_append, ih (by omega), absorbBits_cons, absorbBits_nil, absorbBit_inside nr v hne, hpos,
      xor_bitsWord_concat S (by omega), BitVec.ofNat_add]
    rfl

/-- A whole block, from the start of a block, is one turn of R143's loop. -/
theorem absorbBits_block (h1 : 1 ≤ r.toNat) (hr : r.toNat < w.bits) (S : BitVec 1600) {P : List Bool}
    (h : P.length = r.toNat) :
    absorbBits w r nr ⟨S, 0⟩ P = ⟨absorbBlock w nr.toNat S P, 0⟩ := by
  have hbits := bits_le w
  obtain rfl | ⟨P, v, rfl⟩ := List.eq_nil_or_concat' P
  · rw [List.length_nil] at h
    omega
  · rw [List.length_append, List.length_singleton] at h
    have hpos := toNat_ofNat_of_lt (n := P.length) (r := r) (by omega)
    have hlast : BitVec.ofNat 11 P.length + 1 = r := by
      apply BitVec.eq_of_toNat_eq
      rw [toNat_add_one_of_lt (r := r) (by omega), hpos, h]
    rw [absorbBits_append, absorbBits_of_lt_block nr hr S (by omega), absorbBits_cons, absorbBits_nil,
      absorbBit_last nr v hlast, hpos, absorbBlock, xor_bitsWord_concat S (by omega)]

/-- n blocks and less than a block after them (R143, R149). -/
theorem absorbBits_blocks (h1 : 1 ≤ r.toNat) (hr : r.toNat < w.bits) (n : Nat) (S : BitVec 1600)
    {Q : List Bool} {k : Nat} (hQ : Q.length = n * r.toNat + k) (hk : k < r.toNat) :
    absorbBits w r nr ⟨S, 0⟩ Q =
      ⟨(blocks r.toNat n Q).foldl (absorbBlock w nr.toNat) S ^^^ bitsWord 1600 (Q.drop (n * r.toNat)),
        BitVec.ofNat 11 k⟩ := by
  induction n generalizing S Q with
  | zero =>
    obtain rfl : Q.length = k := by omega
    simpa [blocks] using absorbBits_of_lt_block nr hr S hk
  | succ n ih =>
    rw [Nat.succ_mul] at hQ ⊢
    have hblock : (Q.take r.toNat).length = r.toNat := List.length_take_of_le (by omega)
    have hrest : (Q.drop r.toNat).length = n * r.toNat + k := by
      rw [List.length_drop]
      omega
    calc absorbBits w r nr ⟨S, 0⟩ Q
      _ = absorbBits w r nr (absorbBits w r nr ⟨S, 0⟩ (Q.take r.toNat)) (Q.drop r.toNat) := by
        rw [← absorbBits_append, List.take_append_drop]
      _ = _ := by
        rw [absorbBits_block nr h1 hr S hblock, ih _ hrest, List.drop_drop, Nat.add_comm r.toNat]
        rfl

/-- Absorbing a string from the zero state (R149). -/
theorem absorbBits_zero (h1 : 1 ≤ r.toNat) (hr : r.toNat < w.bits) (Q : List Bool) :
    absorbBits w r nr ⟨0, 0⟩ Q =
      ⟨absorbString w r.toNat nr.toNat Q ^^^ bitsWord 1600 (Q.drop (Q.length / r.toNat * r.toNat)),
        BitVec.ofNat 11 (Q.length % r.toNat)⟩ :=
  absorbBits_blocks nr h1 hr (Q.length / r.toNat) 0 (Nat.div_add_mod' _ _).symm (Nat.mod_lt _ h1)

/-- Absorbing a padded string from the zero state is R140's absorption loop. -/
theorem absorbBits_padded (h1 : 1 ≤ r.toNat) (hr : r.toNat < w.bits) (N : List Bool) :
    absorbBits w r nr ⟨0, 0⟩ (N ++ pad r.toNat N.length) =
      ⟨absorbString w r.toNat nr.toNat (N ++ pad r.toNat N.length), 0⟩ := by
  have hwhole := dvd_length_append_pad h1 N
  rw [absorbBits_zero nr h1 hr, Nat.div_mul_cancel hwhole, Nat.mod_eq_zero_of_dvd hwhole, List.drop_length]
  simp [bitsWord]

end

/-- Settles O46: by induction on the blocks, each absorbed bit by bit. -/
theorem absorptionEqualsTheBlockLoop : Obligations.AbsorptionEqualsTheBlockLoop := by
  intro w r nr h1 hr
  refine ⟨fun Q => ?_, absorbBits_append w r nr, absorbBits_padded nr h1 hr⟩
  have hlt : Q.length % r.toNat < 2 ^ 11 := (Nat.mod_lt _ h1).trans r.isLt
  have h : Q.foldl (absorbBit w r nr) ⟨0, 0⟩ = _ := absorbBits_zero nr h1 hr Q
  simp only [h, BitVec.toNat_ofNat, Nat.mod_eq_of_lt hlt, and_self]

end Sys2Proof.Machine
end

section
/-! PROOFS. SqueezeBit and the squeeze stream (spec 41_sponge.md R144, R148, R151). -/

namespace Sys2Proof.Machine

section
variable {w : Width} {r : BitVec 11} (nr : BitVec 5)

/-! ## SqueezeBit -/

/-- SqueezeBit at the end of a block starts the next one (R148). -/
theorem squeezeBit_at_end (S : BitVec 1600) :
    squeezeBit w r nr ⟨S, r⟩ = ((keccakP w nr.toNat S).getLsbD 0, ⟨keccakP w nr.toNat S, 1⟩) := by
  simp [squeezeBit, refill]

/-- SqueezeBit inside a block (R148). -/
theorem squeezeBit_inside {q : Squeezer} (h : q.spos ≠ r) :
    squeezeBit w r nr q = (q.S.getLsbD q.spos.toNat, ⟨q.S, q.spos + 1⟩) := by
  simp [squeezeBit, refill, h]

end

/-- Settles O44: the position decides whether SqueezeBit permutes first. -/
theorem squeezeBitRule : Obligations.SqueezeBitRule := by
  intro w r nr ⟨S, p⟩ hle _ _
  refine ⟨fun heq => ?_, fun hne => ?_⟩
  · obtain rfl : p = r := heq
    rw [squeezeBit_at_end]
    exact ⟨rfl, rfl⟩
  · rw [squeezeBit_inside nr hne]
    exact ⟨rfl, rfl, toNat_add_one_of_lt (lt_of_le_of_ne hle fun h => hne (BitVec.eq_of_toNat_eq h))⟩

/-! ## Several bits -/

/-- Squeezing does not depend on how the bits are split (R151). -/
theorem squeezeBits_add (w : Width) (r : BitVec 11) (nr : BitVec 5) (m n : Nat) (q : Squeezer) :
    squeezeBits w r nr (m + n) q =
      ((squeezeBits w r nr m q).1 ++ (squeezeBits w r nr n (squeezeBits w r nr m q).2).1,
        (squeezeBits w r nr n (squeezeBits w r nr m q).2).2) := by
  induction m generalizing q with
  | zero => rw [Nat.zero_add]; rfl
  | succ m ih => rw [Nat.succ_add, squeezeBits_succ, squeezeBits_succ, ih, List.cons_append]

theorem wordBits_succ {m : Nat} (v : BitVec m) (n : Nat) :
    wordBits v (n + 1) = wordBits v n ++ [v.getLsbD n] := by
  simp [wordBits, List.range_succ]

theorem take_wordBits {m k n : Nat} (v : BitVec m) (h : k ≤ n) : (wordBits v n).take k = wordBits v k := by
  rw [wordBits, wordBits, ← List.map_take, List.take_range, Nat.min_eq_left h]

section
variable {w : Width} {r : BitVec 11} (nr : BitVec 5)

/-- Up to a block, from the start of a block, is read in place. -/
theorem squeezeBits_of_le_block (S : BitVec 1600) {n : Nat} (h : n ≤ r.toNat) :
    squeezeBits w r nr n ⟨S, 0⟩ = (wordBits S n, ⟨S, BitVec.ofNat 11 n⟩) := by
  induction n with
  | zero => rfl
  | succ n ih =>
    have hpos := toNat_ofNat_of_lt (n := n) (r := r) h
    have hne : BitVec.ofNat 11 n ≠ r := fun heq => by
      rw [heq] at hpos
      omega
    rw [squeezeBits_add, ih (by omega), squeezeBits_succ, squeezeBit_inside nr hne, hpos, wordBits_succ,
      BitVec.ofNat_add]
    rfl

/-- At the end of a block the next bits are those of the permuted state (R148). -/
theorem squeezeBits_at_end (h1 : 1 ≤ r.toNat) (S : BitVec 1600) (n : Nat) :
    (squeezeBits w r nr n ⟨S, r⟩).1 = (squeezeBits w r nr n ⟨keccakP w nr.toNat S, 0⟩).1 := by
  cases n with
  | zero => rfl
  | succ n =>
    have hne : (0 : BitVec 11) ≠ r := fun h => by simp [← h] at h1
    rw [squeezeBits_succ, squeezeBits_succ, squeezeBit_at_end, squeezeBit_inside nr hne]
    rfl

/-- The bits squeezed are the first bits of any stretch of the stream that is long enough. -/
theorem squeezeBits_eq_take (h1 : 1 ≤ r.toNat) (m : Nat) (S : BitVec 1600) {n : Nat}
    (h : n ≤ m * r.toNat) :
    (squeezeBits w r nr n ⟨S, 0⟩).1 = (squeezeStream w r.toNat nr.toNat m S).take n := by
  induction m generalizing S n with
  | zero =>
    obtain rfl : n = 0 := by omega
    rfl
  | succ m ih =>
    have hblock : (rateBits r.toNat S).length = r.toNat := wordBits_length S r.toNat
    rw [squeezeStream]
    rcases Nat.le_total n r.toNat with hle | hge
    · rw [squeezeBits_of_le_block nr S hle, List.take_append_of_le_length (hblock.symm ▸ hle), rateBits,
        take_wordBits S hle]
    · obtain ⟨k, rfl⟩ := Nat.exists_eq_add_of_le hge
      have hk : k ≤ m * r.toNat := by
        rw [Nat.succ_mul] at h
        omega
      have hfull := squeezeBits_of_le_block (w := w) nr S (le_refl r.toNat)
      rw [BitVec.ofNat_toNat, BitVec.setWidth_eq] at hfull
      rw [squeezeBits_add, hfull, squeezeBits_at_end nr h1, ih _ hk, List.take_append, hblock,
        Nat.add_sub_cancel_left, List.take_of_length_le (hblock.trans_le hge)]
      rfl

/-- The bits squeezed from the start of a block are the output of R144. -/
theorem squeezeBits_eq_squeezeString (h1 : 1 ≤ r.toNat) (S : BitVec 1600) (n : Nat) :
    (squeezeBits w r nr n ⟨S, 0⟩).1 = squeezeString w r.toNat nr.toNat S n :=
  squeezeBits_eq_take nr h1 n S (Nat.le_mul_of_pos_right n h1)

end

/-- Settles O47: by induction on the blocks of the stream. -/
theorem squeezingReadsTheStream : Obligations.SqueezingReadsTheStream := by
  intro w r nr S0 h1 _
  refine ⟨squeezeBits_eq_squeezeString nr h1 S0, squeezeBits_add w r nr, fun n d hnd => ?_⟩
  rw [← squeezeBits_eq_squeezeString nr h1 S0 n, squeezeString, List.take_take, Nat.min_eq_left hnd]
  exact (squeezeBits_eq_take nr h1 d S0 (hnd.trans (Nat.le_mul_of_pos_right d h1))).symm

end Sys2Proof.Machine
end

section
/-! PROOFS. The sponge commands at their completion: INIT, ABSORB, FINAL and SQUEEZE
(spec 41_sponge.md R145, R155 to R158). -/

namespace Sys2Proof.Machine

/-! ## INIT -/

/-- INIT opens the session its configuration gives, if the output length is not 0 (R155). -/
theorem exec_init_opens {s : State} {p : Session} (hs : s.Ready) (hl : s.AtOnce)
    (hp : sessionOf s.width s.cfg s.outlen = some p) (hd : p.d ≠ 0) :
    exec .init s =
      .next
        { s with
          S := 0, ract := p.ract, nract := p.nract, sfxlenact := p.sfxlenact, sfxact := p.sfxact,
          apos := 0, spos := 0, remain := p.d, dout := 0, phase := .absorb,
          latency := s.latency.tail } := by
  have hacc : commandError .init s.operands s = .none := by
    simp [commandError, phaseAllows, initError, State.operands, hp]
    exact hd
  have hp' : sessionOf s.popLatency.width s.operands.cfg s.operands.outlen = some p := hp
  rw [exec_accepted_at_once hs hl hacc, effectOf, initEffect, hp']
  rfl

theorem sessionOf_facade {w : Width} {cfg : Word} {row : FacadeRow} (hw : w = .b1600)
    (hrow : facadeRow (cfgMode cfg).toNat = some row) (outlen : Word) :
    sessionOf w cfg outlen = some (row.session outlen) := by
  simp [sessionOf, hrow, hw]

theorem sessionOf_raw {w : Width} {cfg : Word} (hmode : cfgMode cfg = 6) (hlegal : rawLegal w cfg = true)
    (outlen : Word) : sessionOf w cfg outlen = some (rawSession cfg outlen) := by
  simp [sessionOf, hmode, facadeRow, hlegal]

/-- Settles O7: each row of the list is the facade row of its mode. -/
theorem initOpensFacadeSession : Obligations.InitOpensFacadeSession := by
  intro s mode r len sfx dfix d hs hl hw hlist hmode hd hd0
  obtain ⟨row, hrow, hsession⟩ : ∃ row, facadeRow mode = some row ∧ row.session s.outlen =
      ⟨BitVec.ofNat 11 r, 24, BitVec.ofNat 4 len, BitVec.ofNat 8 sfx, d⟩ := by
    simp only [List.mem_cons, Prod.mk.injEq, List.not_mem_nil, or_false] at hlist
    subst hd
    rcases hlist with ⟨rfl, rfl, rfl, rfl, rfl⟩ | ⟨rfl, rfl, rfl, rfl, rfl⟩ | ⟨rfl, rfl, rfl, rfl, rfl⟩ |
        ⟨rfl, rfl, rfl, rfl, rfl⟩ | ⟨rfl, rfl, rfl, rfl, rfl⟩ | ⟨rfl, rfl, rfl, rfl, rfl⟩ <;>
      exact ⟨_, rfl, rfl⟩
  have hp := sessionOf_facade hw (hmode ▸ hrow) s.outlen
  rw [hsession] at hp
  exact exec_init_opens hs hl hp hd0

/-- Settles O8: the field bounds are RAW mode's checks. -/
theorem initOpensRawSession : Obligations.InitOpensRawSession := by
  intro s hs hl hmode hr1 hr hnr1 hnr hsfx hd
  have hlegal : rawLegal s.width s.cfg = true := by
    simp only [rawLegal, Bool.and_eq_true, decide_eq_true_eq, legalNr_iff]
    exact ⟨⟨⟨hr1, hr⟩, hnr1, hnr⟩, hsfx⟩
  exact exec_init_opens hs hl (sessionOf_raw hmode hlegal s.outlen) hd

/-! ## ABSORB -/

/-- Settles O9: PHASE is ABSORB's only check. -/
theorem absorbCompletes : Obligations.AbsorbCompletes := by
  intro s n hs hl hphase
  have hacc : commandError (.absorb n) s.operands s = .none := by
    simp [commandError, phaseAllows, hphase]
  exact exec_accepted_at_once hs hl hacc

/-! ## FINAL -/

section
variable {w : Width} {r : BitVec 11} (nr : BitVec 5)

/-- AbsorbBits move APOS on modulo RACT (R147). -/
theorem absorbBits_apos {a : Absorber} (ha : a.apos.toNat < r.toNat) (bits : List Bool) :
    (absorbBits w r nr a bits).apos.toNat = (a.apos.toNat + bits.length) % r.toNat := by
  induction bits generalizing a with
  | nil => exact (Nat.mod_eq_of_lt ha).symm
  | cons v rest ih =>
    have hnext := toNat_add_one_of_lt ha
    rw [absorbBits_cons, List.length_cons, Nat.add_comm rest.length, ← Nat.add_assoc]
    by_cases hlast : a.apos + 1 = r
    · have hzero : (0 : BitVec 11).toNat < r.toNat := by simp; omega
      rw [absorbBit_last nr v hlast, ih hzero, ← hnext, hlast, Nat.add_mod_left]
      simp
    · have hlt : (a.apos + 1).toNat < r.toNat :=
        lt_of_le_of_ne (by omega) fun h => hlast (BitVec.eq_of_toNat_eq h)
      rw [absorbBit_inside nr v hlast, ih hlt, hnext]

/-- FINAL's loop absorbs the zeros up to the last position of the block (R157). -/
theorem absorbZeros_eq (fuel : Nat) {a : Absorber} (ha : a.apos.toNat < r.toNat)
    (hfuel : r.toNat ≤ a.apos.toNat + fuel) :
    absorbZeros w r nr fuel a = absorbBits w r nr a (List.replicate (r.toNat - 1 - a.apos.toNat) false) := by
  induction fuel generalizing a with
  | zero => omega
  | succ fuel ih =>
    rw [absorbZeros]
    split
    · rename_i hlast
      have hnone : r.toNat - 1 - a.apos.toNat = 0 := by bv_omega
      rw [hnone]
      rfl
    · rename_i hne
      have hnext : (absorbBit w r nr a false).apos.toNat = a.apos.toNat + 1 := by
        rw [absorbBit_apos_of_ne_last nr false hne, toNat_add_one_of_lt ha]
      have hlt : a.apos.toNat + 1 < r.toNat := by bv_omega
      have hsome : r.toNat - 1 - a.apos.toNat = r.toNat - 1 - (a.apos.toNat + 1) + 1 := by omega
      rw [ih (by omega) (by omega), hnext, hsome, List.replicate_succ, absorbBits_cons]

end

/-- After the first padding bit the zeros run up to the last position of the block (R142, R157). -/
theorem padZeros_eq_sub {r : Nat} (hr : 1 ≤ r) (m : Nat) : padZeros r m = r - 1 - (m + 1) % r := by
  have hlt := Nat.mod_lt (m + 1) hr
  have hdiv := Nat.div_add_mod (m + 1) r
  refine padZeros_eq (by omega) ⟨(m + 1) / r + 1, ?_⟩
  rw [Nat.mul_succ]
  omega

/-- FINAL absorbs the suffix and the padding (R150, R157). -/
theorem finalAbsorb_eq {s : State} (ha : s.apos.toNat < s.ract.toNat) :
    finalAbsorb s =
      absorbBits s.width s.ract s.nract s.absorber
        (wordBits s.sfxact s.sfxlenact.toNat ++
          pad s.ract.toNat (s.apos.toNat + (wordBits s.sfxact s.sfxlenact.toNat).length)) := by
  have h1 : 1 ≤ s.ract.toNat := by omega
  have hone := absorbBits_apos (w := s.width) s.nract (a := s.absorber) ha
    (wordBits s.sfxact s.sfxlenact.toNat ++ [true])
  rw [List.length_append, List.length_singleton, ← Nat.add_assoc, absorbBits_append, absorbBits_cons,
    absorbBits_nil] at hone
  have hlt := Nat.mod_lt (s.absorber.apos.toNat + (wordBits s.sfxact s.sfxlenact.toNat).length + 1) h1
  rw [finalAbsorb, absorbZeros_eq s.nract 2048 (by omega) (by omega), hone, pad, padZeros_eq_sub h1,
    absorbBits_append, absorbBits_cons, absorbBits_append, absorbBits_cons, absorbBits_nil]
  rfl

/-- Settles O10: FINAL's loops absorb the suffix and the padding, which end the block. -/
theorem finalCompletesWithThePadding : Obligations.FinalCompletesWithThePadding := by
  intro s hinv hs hl hphase suffix a
  obtain ⟨-, hr, -⟩ := hinv.session (by simp [hphase])
  obtain ⟨hapos, -⟩ := hinv.absorb hphase
  obtain ⟨-, hzero⟩ := finalAbsorb_bounds hr hinv.array_width hapos
  have ha : a = finalAbsorb s := (finalAbsorb_eq hapos).symm
  have hacc : commandError .final s.operands s = .none := by
    simp [commandError, phaseAllows, hphase]
  have heffect : effectOf .final s.operands s.popLatency =
      { s with
        S := (finalAbsorb s).S, apos := (finalAbsorb s).apos, spos := 0, phase := .squeeze,
        latency := s.latency.tail } := rfl
  rw [exec_accepted_at_once hs hl hacc, heffect, ha, hzero]
  exact ⟨rfl, rfl⟩

/-! ## SQUEEZE -/

/-- Settles O11: the bits go into DOUT, and REMAIN does not wrap around. -/
theorem squeezeCompletes : Obligations.SqueezeCompletes := by
  intro s n hs hl hphase hn hremain q
  have hacc : commandError (.squeeze n) s.operands s = .none := by
    simp [commandError, phaseAllows, hphase, squeezeError, hremain]
  have hleft : (s.remain - BitVec.ofNat 32 n).toNat = s.remain.toNat - n := by
    have hn32 : (BitVec.ofNat 32 n).toNat = n := by rw [BitVec.toNat_ofNat, Nat.mod_eq_of_lt (by omega)]
    rw [BitVec.toNat_sub_of_le (by rw [BitVec.le_def, hn32]; exact hremain), hn32]
  refine ⟨_, exec_accepted_at_once hs hl hacc, rfl, fun i => ?_, hleft, ?_⟩
  · have hlen : q.1.length = n := squeezeBits_length s.width s.ract s.nract n ⟨s.S, s.spos⟩
    have hdout : (effectOf (.squeeze n) s.operands s.popLatency).dout = bitsWord 64 q.1 := rfl
    rw [hdout, getLsbD_bitsWord]
    by_cases hi : i < 64
    · simp [hi]
    · rw [decide_eq_false hi, Bool.false_and, List.getD_eq_default _ _ (by omega)]
  · have hlast : s.remain - BitVec.ofNat 32 n = 0 ↔ n = s.remain.toNat := by
      rw [← BitVec.toNat_inj, hleft, BitVec.ofNat_eq_ofNat, BitVec.toNat_ofNat, Nat.zero_mod]
      omega
    rw [effectOf, squeezeEffect_phase, popLatency_remain, popLatency_phase, hphase]
    simp only [hlast]

end Sys2Proof.Machine
end

section
/-! PROOFS. A session, end to end: the message and the output in pieces (spec 41_sponge.md R140, R149 to
R152). -/

namespace Sys2Proof.Machine

theorem atOnce_of_latency_nil {s : State} (h : s.latency = []) : s.AtOnce := by
  simp [State.AtOnce, State.nextLatency, h]

/-- In `t` the session of `s` has absorbed `bits`. -/
structure State.AfterAbsorbing (s : State) (bits : List Bool) (t : State) : Prop where
  width : t.width = s.width
  ract : t.ract = s.ract
  nract : t.nract = s.nract
  sfxlenact : t.sfxlenact = s.sfxlenact
  sfxact : t.sfxact = s.sfxact
  remain : t.remain = s.remain
  absorber : t.absorber = absorbBits s.width s.ract s.nract s.absorber bits

theorem State.AfterAbsorbing.append {s t u : State} {p q : List Bool} (ht : s.AfterAbsorbing p t)
    (hu : t.AfterAbsorbing q u) : s.AfterAbsorbing (p ++ q) u where
  width := hu.width.trans ht.width
  ract := hu.ract.trans ht.ract
  nract := hu.nract.trans ht.nract
  sfxlenact := hu.sfxlenact.trans ht.sfxlenact
  sfxact := hu.sfxact.trans ht.sfxact
  remain := hu.remain.trans ht.remain
  absorber := by rw [hu.absorber, ht.width, ht.ract, ht.nract, ht.absorber, absorbBits_append]

/-- A block that is absorbing in a session, takes commands, and completes each at once. -/
structure State.Absorbing (s : State) : Prop where
  inv : s.Inv
  ready : s.Ready
  latency : s.latency = []
  phase : s.phase = .absorb

theorem State.Absorbing.with_din {s : State} (h : s.Absorbing) (v : Word) :
    State.Absorbing { s with din := v } :=
  ⟨h.inv.of_same_record rfl h.inv.cfg_reserved h.inv.outlen_reserved rfl rfl rfl, h.ready, h.latency,
    h.phase⟩

/-- One piece: a value written to DIN and an ABSORB of n bits (R156). -/
theorem exec_absorb_piece {s : State} (h : s.Absorbing) (v : Word) {n : Nat} (hn : 1 ≤ n ∧ n ≤ 64) :
    ∃ t, exec (.absorb n) { s with din := v } = .next t ∧ s.AfterAbsorbing (wordBits v n) t ∧
      t.Absorbing := by
  have hdin := h.with_din v
  have hx := absorbCompletes _ n hdin.ready (atOnce_of_latency_nil hdin.latency) hdin.phase
  have hnil : s.latency.tail = [] := by rw [h.latency]; rfl
  have hinv : State.Inv _ := exec_inv hdin.inv (i := .absorb n) (bitCountOk_iff.2 hn) hx
  exact ⟨_, hx, ⟨rfl, rfl, rfl, rfl, rfl, rfl, rfl⟩, hinv, hdin.ready, hnil, hdin.phase⟩

theorem absorbChunks_absorbs {chunks : List (Word × Nat)} {s : State} (h : s.Absorbing)
    (hchunks : ∀ c ∈ chunks, 1 ≤ c.2 ∧ c.2 ≤ 64) :
    ∃ t, absorbChunks chunks s = some t ∧ s.AfterAbsorbing (chunkBits chunks) t ∧ t.Absorbing := by
  induction chunks generalizing s with
  | nil => exact ⟨s, rfl, ⟨rfl, rfl, rfl, rfl, rfl, rfl, rfl⟩, h⟩
  | cons c rest ih =>
    obtain ⟨hc, hrest⟩ := List.forall_mem_cons.1 hchunks
    obtain ⟨t, hx, ht, ht'⟩ := exec_absorb_piece h c.1 hc
    obtain ⟨u, hu, hu', hu''⟩ := ih ht' hrest
    refine ⟨u, ?_, ht.append hu', hu''⟩
    simp only [absorbChunks, hx, nextState, hu]

/-- The word of at most 64 bits gives the bits back (R66). -/
theorem wordBits_of_getLsbD {v : Word} {bits : List Bool} (h : ∀ i, v.getLsbD i = bits.getD i false) :
    wordBits v bits.length = bits := by
  refine List.ext_getElem (wordBits_length v _) fun i _ hi => ?_
  simp [wordBits, h, hi]

/-- The output is read in pieces, and REMAIN counts down the bits (R151, R158). -/
theorem squeezeChunks_reads {counts : List Nat} {s : State} (hs : s.Ready) (hl : s.latency = [])
    (hphase : s.remain ≠ 0 → s.phase = .squeeze) (hcounts : ∀ n ∈ counts, 1 ≤ n ∧ n ≤ 64)
    (hsum : counts.sum ≤ s.remain.toNat) :
    ∃ v, squeezeChunks counts s =
        some ((squeezeBits s.width s.ract s.nract counts.sum ⟨s.S, s.spos⟩).1, v) ∧
      v.remain.toNat = s.remain.toNat - counts.sum ∧ v.err = .none := by
  induction counts generalizing s with
  | nil => exact ⟨s, rfl, rfl, hs.2⟩
  | cons n rest ih =>
    obtain ⟨⟨hn1, hn64⟩, hrest⟩ := List.forall_mem_cons.1 hcounts
    rw [List.sum_cons] at hsum ⊢
    have hsqueeze : s.phase = .squeeze := hphase fun h0 => by
      rw [h0, BitVec.ofNat_eq_ofNat, BitVec.toNat_ofNat, Nat.zero_mod] at hsum
      omega
    obtain ⟨t, hx, ht, hdout, hremain, htphase⟩ :=
      squeezeCompletes s n hs (atOnce_of_latency_nil hl) hsqueeze hn64 (by omega)
    have hready : t.Ready := by rw [ht]; exact hs
    have hnil : t.latency = [] := by rw [ht]; simp [hl]
    have hnext : t.remain ≠ 0 → t.phase = .squeeze := fun hne => by
      rw [htphase, if_neg]
      intro hall
      exact hne (BitVec.eq_of_toNat_eq (by rw [hremain, hall, Nat.sub_self]; rfl))
    obtain ⟨v, hv, hvremain, herr⟩ := ih hready hnil hnext hrest (by omega)
    have hread : wordBits t.dout n = (squeezeBits s.width s.ract s.nract n ⟨s.S, s.spos⟩).1 := by
      have hbits := wordBits_of_getLsbD hdout
      rwa [squeezeBits_length] at hbits
    refine ⟨v, ?_, by omega, herr⟩
    simp only [squeezeChunks, hx, nextState, hv, hread, squeezeBits_add]
    rw [ht]

/-- The message of a session with its suffix and padding: the string R140's loop absorbs. -/
def State.paddedMessage (s : State) (message : List Bool) : List Bool :=
  message ++ wordBits s.sfxact s.sfxlenact.toNat ++
    pad s.ract.toNat (message ++ wordBits s.sfxact s.sfxlenact.toNat).length

/-- FINAL after a message from the zero state: the suffix and the padding complete the message's blocks
(R150). -/
theorem absorb_suffix_and_padding {s t : State} {bits : List Bool} (hfresh : s.absorber = ⟨0, 0⟩)
    (h1 : 1 ≤ s.ract.toNat) (hr : s.ract.toNat < s.width.bits) (ht : s.AfterAbsorbing bits t) :
    (absorbBits s.width s.ract s.nract t.absorber
        (wordBits s.sfxact s.sfxlenact.toNat ++
          pad s.ract.toNat (t.apos.toNat + (wordBits s.sfxact s.sfxlenact.toNat).length))).S =
      absorbString s.width s.ract.toNat s.nract.toNat (s.paddedMessage bits) := by
  have habsorber : t.absorber = absorbBits s.width s.ract s.nract ⟨0, 0⟩ bits := by
    rw [ht.absorber, hfresh]
  have hapos : t.apos.toNat ≡ bits.length [MOD s.ract.toNat] := by
    have hmod : t.absorber.apos.toNat = (0 + bits.length) % s.ract.toNat := by
      rw [habsorber]
      exact absorbBits_apos (a := ⟨0, 0⟩) s.nract h1 bits
    rw [Nat.zero_add] at hmod
    exact (congrArg (· % s.ract.toNat) hmod).trans (Nat.mod_mod _ _)
  rw [pad_congr h1 (hapos.add_right _), ← List.length_append, habsorber, ← absorbBits_append,
    ← List.append_assoc, absorbBits_padded s.nract h1 hr, State.paddedMessage]

/-- FINAL leaves the state of R140's absorption loop, ready to squeeze (R150, R157). -/
theorem exec_final_after_absorbing {s t : State} {bits : List Bool} (hfresh : s.absorber = ⟨0, 0⟩)
    (h1 : 1 ≤ s.ract.toNat) (hr : s.ract.toNat < s.width.bits) (ht : s.AfterAbsorbing bits t)
    (habs : t.Absorbing) :
    exec .final t =
      .next
        { t with
          S := absorbString s.width s.ract.toNat s.nract.toNat (s.paddedMessage bits)
          apos := 0, spos := 0, phase := .squeeze, latency := t.latency.tail } := by
  rw [← absorb_suffix_and_padding hfresh h1 hr ht, ← ht.width, ← ht.ract, ← ht.nract, ← ht.sfxlenact,
    ← ht.sfxact]
  exact (finalCompletesWithThePadding t habs.inv habs.ready (atOnce_of_latency_nil habs.latency)
    habs.phase).2

/-- Settles O48: the pieces absorb the message, FINAL its suffix and padding, and the squeezes read the
stream. -/
theorem sessionComputesTheSponge : Obligations.SessionComputesTheSponge := by
  intro s chunks counts hinv hs hlat hphase hS hapos hchunks hcounts hsum
  obtain ⟨h1, hr, -⟩ := hinv.session (by simp [hphase])
  have hfresh : s.absorber = ⟨0, 0⟩ := by rw [State.absorber, hS, hapos]
  obtain ⟨t, hchunk, ht, habs⟩ := absorbChunks_absorbs ⟨hinv, hs, hlat, hphase⟩ hchunks
  have hfinal := exec_final_after_absorbing hfresh h1 hr ht habs
  obtain ⟨v, hv, hremain, herr⟩ := squeezeChunks_reads (counts := counts) (s := { t with
      S := absorbString s.width s.ract.toNat s.nract.toNat (s.paddedMessage (chunkBits chunks))
      apos := 0, spos := 0, phase := .squeeze, latency := t.latency.tail })
    habs.ready (by rw [habs.latency]; rfl) (fun _ => rfl) hcounts (ht.remain ▸ hsum)
  refine ⟨t, _, v, _, hchunk, hfinal, hv, ?_, ?_, herr⟩
  · rw [ht.width, ht.ract, ht.nract]
    exact squeezeBits_eq_squeezeString s.nract h1 _ counts.sum
  · rw [hremain, ht.remain]

end Sys2Proof.Machine
end

section
/-! PROOFS. The control commands at their completion: NOP and CLEAR
(spec 42_control.md R180, R181). -/

namespace Sys2Proof.Machine

/-- NOP has no check of its own and is legal in every phase (R180, R203). -/
theorem commandError_nop (o : Operands) (s : State) : commandError .nop o s = .none := rfl

/-- CLEAR has no check of its own and is legal in every phase (R181, R203). -/
theorem commandError_clear (o : Operands) (s : State) : commandError .clear o s = .none := rfl

/-- Settles O6: a Ready block accepts NOP in every phase, and its effect at completion is none. -/
theorem nopCompletesAndChangesNothing : Obligations.NopCompletesAndChangesNothing :=
  fun s hs hl => exec_accepted_at_once hs hl (commandError_nop s.operands s)

/-- Settles O15: CLEAR bypasses the sticky-error check (R208) and is accepted in every phase, so its
effect applies at once, after the schedule has moved on. -/
theorem clearCompletesInEveryPhase : Obligations.ClearCompletesInEveryPhase := by
  intro s hidle hl
  have haccepted : exec .clear s = .next (accept .clear (effectOf .clear) s) :=
    (exec_eq_issue .clear s).trans
      (issue_accepted _ hidle (.inr rfl) (commandError_clear s.operands s))
  rw [haccepted, accept_at_once _ _ hl]
  rfl

end Sys2Proof.Machine
end

section
/-! PROOFS. The error rules: which check decides a CMD write, what it records, and how a recorded error
ends (spec 60_exceptions.md R200 to R213, R219). -/

namespace Sys2Proof.Machine

/-! ## The outcome of a command on a Ready block -/

/-- No command's effect records an error (R200). -/
theorem effectOf_err_of_no_error (i : Instr) (o : Operands) {s : State} (h : s.err = .none) :
    (effectOf i o s).err = .none := by
  rcases effectOf_error i o s with ⟨hkeep, -⟩ | ⟨-, hnone, -⟩
  · exact hkeep.trans h
  · exact hnone

/-- On a Ready block ERR becomes what the checks of R209 answer, so 0 after an accepted command. -/
theorem err_of_exec_ready {i : Instr} {s t : State} (hs : s.Ready) (hx : exec i s = .next t) :
    t.err = commandError i s.operands s := by
  obtain ⟨hidle, herr⟩ := hs
  rcases exec_cases i s with
    ⟨hbusy, -⟩ | ⟨-, hne, -⟩ | ⟨-, -, hrej, h⟩ | ⟨-, -, hacc, -, h⟩ | ⟨-, -, hacc, -, h⟩
  · rw [busy_eq_false_iff.2 hidle] at hbusy
    cases hbusy
  · exact absurd herr hne
  · cases h.symm.trans hx
    rw [reject_of_no_error herr]
  · cases h.symm.trans hx
    rw [hacc, launch_err, herr]
  · cases h.symm.trans hx
    rw [hacc, effectOf_err_of_no_error i s.operands (s := s.popLatency) herr]

/-- A Ready block rejects a legal command with code `e` exactly when its checks answer `e` (R200, R210). -/
theorem exec_rejects_iff {i : Instr} {s : State} {e : ErrCode} (hs : s.Ready) (he : e ≠ .none) :
    exec i s = .next { s with err := e, erropc := i.opcode } ↔ commandError i s.operands s = e := by
  constructor
  · intro hx
    exact (err_of_exec_ready hs hx).symm
  · rintro rfl
    exact (exec_eq_issue i s).trans (issue_rejected _ hs he)

/-! ## PHASE -/

/-- `phaseAllows` is the list of R203's table. -/
theorem phaseAllows_iff_mem (i : Instr) (p : Phase) : phaseAllows i p = true ↔ p ∈ legalPhases i := by
  cases i with
  | nop | init | clear => cases p <;> decide
  | _ => simp [phaseAllows, legalPhases]

theorem initError_of_none {o : Operands} {s : State} (h : sessionOf s.width o.cfg o.outlen = none) :
    initError o s = .config := by
  rw [initError, h]

theorem initError_of_some {o : Operands} {s : State} {p : Session}
    (h : sessionOf s.width o.cfg o.outlen = some p) :
    initError o s = if p.d = 0 then .outlen else .none := by
  rw [initError, h]

theorem initError_ne_phase (o : Operands) (s : State) : initError o s ≠ .phase := by
  cases hp : sessionOf s.width o.cfg o.outlen with
  | none => rw [initError_of_none hp]; decide
  | some p => rw [initError_of_some hp]; split <;> decide

theorem permuteError_ne_phase (o : Operands) (s : State) : permuteError o s ≠ .phase := by
  unfold permuteError
  split <;> decide

theorem squeezeError_ne_phase (n : Nat) (s : State) : squeezeError n s ≠ .phase := by
  unfold squeezeError
  split <;> decide

/-- The checks after PHASE (R204 to R206) never answer PHASE. -/
theorem commandError_eq_phase_iff (i : Instr) (o : Operands) (s : State) :
    commandError i o s = .phase ↔ s.phase ∉ legalPhases i := by
  rw [← phaseAllows_iff_mem, Bool.not_eq_true]
  refine ⟨fun h => by_contra fun hallowed => ?_, fun h => if_pos h⟩
  unfold commandError at h
  rw [if_neg hallowed] at h
  cases i with
  | init => exact initError_ne_phase o s h
  | squeeze n => exact squeezeError_ne_phase n s h
  | permute => exact permuteError_ne_phase o s h
  | _ => cases h

/-- Settles O18: PHASE is what the first check of a Ready block answers, and no other check answers it. -/
theorem phaseTableDecidesPhaseError : Obligations.PhaseTableDecidesPhaseError := by
  refine fun s i hs => ⟨fun hphase => ?_, fun hphase t hx ht => ?_⟩
  · exact (exec_rejects_iff hs (by decide)).2 ((commandError_eq_phase_iff i s.operands s).2 hphase)
  · exact (commandError_eq_phase_iff i s.operands s).1 ((err_of_exec_ready hs hx).symm.trans ht) hphase

/-! ## CONFIG and OUTLEN -/

theorem facadeRow_eq_none_iff : {mode : Nat} → (facadeRow mode = none ↔ 6 ≤ mode)
  | 0 | 1 | 2 | 3 | 4 | 5 => by decide
  | mode + 6 => by simp [facadeRow]

theorem lt_of_facadeRow_eq_some {mode : Nat} {row : FacadeRow} (h : facadeRow mode = some row) :
    mode < 6 := by
  rw [← Nat.not_le, ← facadeRow_eq_none_iff, h]
  simp

theorem rawLegal_eq_false_iff {w : Width} {cfg : Word} :
    rawLegal w cfg = false ↔
      (cfgRate cfg).toNat = 0 ∨ w.bits ≤ (cfgRate cfg).toNat ∨ (cfgNr cfg).toNat = 0 ∨
        w.nrmax < (cfgNr cfg).toNat ∨ 8 < (cfgSfxlen cfg).toNat := by
  rw [← Bool.not_eq_true]
  simp only [rawLegal, Bool.and_eq_true, decide_eq_true_eq, legalNr_iff]
  omega

/-- A configuration opens no session exactly in the cases R204 lists. -/
theorem sessionOf_eq_none_iff (s : State) :
    sessionOf s.width s.cfg s.outlen = none ↔ InitConfigIllegal s := by
  have hmode : (cfgMode s.cfg).toNat < 8 := (cfgMode s.cfg).isLt
  unfold sessionOf InitConfigIllegal
  cases hrow : facadeRow (cfgMode s.cfg).toNat with
  | some row =>
    have hlt := lt_of_facadeRow_eq_some hrow
    have hfacade : (cfgMode s.cfg).toNat ≤ 5 ∧ (cfgMode s.cfg).toNat ≠ 6 ∧ (cfgMode s.cfg).toNat ≠ 7 :=
      by omega
    simp [hfacade]
  | none =>
    have hraw := facadeRow_eq_none_iff.1 hrow
    by_cases h6 : (cfgMode s.cfg).toNat = 6
    · simp [h6, ← rawLegal_eq_false_iff]
    · have h7 : (cfgMode s.cfg).toNat = 7 := by omega
      simp [h7]

/-- Which facade modes take their output length from OUTLEN (R145). -/
theorem facadeRow_length_eq_zero_iff {mode : Nat} {row : FacadeRow} (hrow : facadeRow mode = some row)
    (outlen : Word) : row.length outlen = 0 ↔ 4 ≤ mode ∧ outlenD outlen = 0 := by
  unfold facadeRow at hrow
  split at hrow <;> cases hrow <;> simp [FacadeRow.length]

/-- A session's output length is 0 exactly when its mode reads OUTLEN.D and that is 0 (R145, R205). -/
theorem session_d_eq_zero_iff {w : Width} {cfg outlen : Word} {p : Session}
    (hp : sessionOf w cfg outlen = some p) :
    p.d = 0 ↔ 4 ≤ (cfgMode cfg).toNat ∧ (cfgMode cfg).toNat ≤ 6 ∧ outlenD outlen = 0 := by
  unfold sessionOf at hp
  cases hrow : facadeRow (cfgMode cfg).toNat with
  | some row =>
    have hfacade := (lt_of_facadeRow_eq_some hrow).le
    simp only [hrow] at hp
    split at hp
    · cases hp
      simpa [hfacade, FacadeRow.session] using facadeRow_length_eq_zero_iff hrow outlen
    · cases hp
  | none =>
    simp only [hrow] at hp
    split_ifs at hp with h6
    cases hp
    simp [h6, rawSession]

/-- INIT is legal in every phase, so its checks start with CONFIG (R203). -/
theorem commandError_init (o : Operands) (s : State) : commandError .init o s = initError o s := rfl

theorem initError_eq_config_iff (s : State) : initError s.operands s = .config ↔ InitConfigIllegal s := by
  rw [← sessionOf_eq_none_iff]
  cases hp : sessionOf s.width s.cfg s.outlen with
  | none => simp [initError_of_none (o := s.operands) hp]
  | some p =>
    rw [initError_of_some (o := s.operands) hp]
    split <;> simp

theorem initError_eq_outlen_iff (s : State) :
    initError s.operands s = .outlen ↔
      ¬InitConfigIllegal s ∧ 4 ≤ (cfgMode s.cfg).toNat ∧ (cfgMode s.cfg).toNat ≤ 6 ∧
        outlenD s.outlen = 0 := by
  rw [← sessionOf_eq_none_iff]
  cases hp : sessionOf s.width s.cfg s.outlen with
  | none => simp [initError_of_none (o := s.operands) hp]
  | some p =>
    rw [initError_of_some (o := s.operands) hp, ← session_d_eq_zero_iff hp]
    simp

theorem commandError_permute {o : Operands} {s : State} (hphase : s.phase = .idle) :
    commandError .permute o s = permuteError o s := by
  simp [commandError, phaseAllows, hphase]

theorem permuteError_eq_config_iff (o : Operands) (s : State) :
    permuteError o s = .config ↔ (cfgNr o.cfg).toNat = 0 ∨ s.width.nrmax < (cfgNr o.cfg).toNat := by
  simp [permuteError, legalNr_iff]
  omega

/-- Settles O19: INIT's first check is that CFG opens a session, PERMUTE's in IDLE is R113's range. -/
theorem configErrorExactly : Obligations.ConfigErrorExactly := by
  refine fun s hs => ⟨?_, fun hphase => ?_⟩
  · exact (exec_rejects_iff hs (by decide)).trans (initError_eq_config_iff s)
  · have hreject := exec_rejects_iff (i := .permute) (e := .config) hs (by decide)
    rw [commandError_permute hphase, permuteError_eq_config_iff] at hreject
    exact hreject

/-- Settles O20: an INIT that passes CONFIG has a session, whose length is the one checked. -/
theorem outlenErrorExactly : Obligations.OutlenErrorExactly :=
  fun s hs => (exec_rejects_iff hs (by decide)).trans (initError_eq_outlen_iff s)

/-! ## OVERRUN -/

theorem commandError_squeeze {n : Nat} {o : Operands} {s : State} (hphase : s.phase = .squeeze) :
    commandError (.squeeze n) o s = squeezeError n s := by
  simp [commandError, phaseAllows, hphase]

theorem squeezeError_eq_overrun_iff (n : Nat) (s : State) :
    squeezeError n s = .overrun ↔ s.remain.toNat < n := by
  simp [squeezeError]

theorem squeezeError_of_le {n : Nat} {s : State} (h : n ≤ s.remain.toNat) : squeezeError n s = .none :=
  if_neg (Nat.not_lt.2 h)

/-- Settles O21: the exact count passes the check and leaves REMAIN = 0, which ends the session. -/
theorem overrunErrorExactly : Obligations.OverrunErrorExactly := by
  refine fun s n hs => ⟨fun hphase => ?_, fun hphase hl hn => ?_, fun hphase => ?_⟩
  · have hreject := exec_rejects_iff (i := .squeeze n) (e := .overrun) hs (by decide)
    rw [commandError_squeeze hphase, squeezeError_eq_overrun_iff] at hreject
    exact hreject
  · have hacc : commandError (.squeeze n) s.operands s = .none :=
      (commandError_squeeze hphase).trans (squeezeError_of_le hn.le)
    have hlast : s.remain - BitVec.ofNat 32 n = 0 := by
      rw [hn, BitVec.ofNat_toNat, BitVec.setWidth_eq]
      exact BitVec.sub_self _
    exact ⟨_, exec_accepted_at_once hs hl hacc, if_pos hlast, hlast⟩
  · have hphase' : s.phase ∉ legalPhases (.squeeze n) := by simp [legalPhases, hphase]
    exact (phaseTableDecidesPhaseError s (.squeeze n) hs).1 hphase'

/-! ## BUSY and the sticky error -/

/-- CLEAR's word is 0x8 and no other (R84, R85). -/
theorem decode_eq_clear_iff (v : Word) : decode v = .ok .clear ↔ v = 0x8 := by
  constructor
  · intro h
    exact (encode_of_decode h).symm
  · rintro rfl
    exact decode_encode (i := .clear) rfl

/-- A CMD write while BUSY = 1 is rejected with BUSY, whatever the word (R207). -/
theorem issueWord_busy (v : Word) {s : State} (h : s.inflight ≠ none) :
    issueWord v s = .next (s.reject .busy (fieldOpc v)) := by
  have hbusy : s.busy = true := busy_eq_true_iff.2 (Option.ne_none_iff_exists'.1 h)
  cases hd : decode v with
  | ok i =>
    obtain ⟨hopc, -⟩ := fields_of_decode hd
    rw [issueWord_of_decode hd, exec_eq_issue, issue_busy _ _ hbusy, hopc]
  | error x => rw [issueWord_of_illegal hd, State.illegalWord, if_pos hbusy]

/-- With an error recorded and BUSY = 0 only CLEAR's word is not ignored (R208). -/
theorem issueWord_sticky {v : Word} {s : State} (hidle : s.inflight = none) (herr : s.err ≠ .none)
    (hv : v ≠ 0x8) : issueWord v s = .next s := by
  cases hd : decode v with
  | ok i =>
    have hclear : i ≠ .clear := fun hi => hv ((decode_eq_clear_iff v).1 (hi ▸ hd))
    rw [issueWord_of_decode hd, exec_eq_issue, issue_sticky _ hidle herr hclear]
  | error x =>
    have hbusy : ¬s.busy = true := by simp [busy_eq_false_iff.2 hidle]
    rw [issueWord_of_illegal hd, State.illegalWord, if_neg hbusy, if_pos herr]

/-- Settles O16: the BUSY check comes first, and only the first error is recorded. -/
theorem busyWriteIsDropped : Obligations.BusyWriteIsDropped := by
  refine fun s v hf => ⟨fun herr => ?_, fun herr => ?_⟩
  · rw [issueWord_busy v hf, reject_of_no_error herr]
    rfl
  · rw [issueWord_busy v hf, reject_of_error herr]

/-- Settles O17: the sticky check comes before every check but BUSY's. -/
theorem stickyErrorIgnoresAllButClear : Obligations.StickyErrorIgnoresAllButClear :=
  fun _ _ => issueWord_sticky

/-! ## The three outcomes of a CMD write -/

/-- The word 0x8 decodes to no command but CLEAR. -/
theorem eq_clear_of_decode {v : Word} {i : Instr} (hd : decode v = .ok i) (hv : v = 0x8) : i = .clear :=
  Except.ok.inj (hd.symm.trans ((decode_eq_clear_iff v).2 hv))

/-- A word that passes every check of R209 goes into flight, or completes at once with LAT = 0 (R233). -/
theorem issueWord_of_accepted {v : Word} {i : Instr} {s : State} (hd : decode v = .ok i)
    (hidle : s.inflight = none) (herr : s.err = .none ∨ v = 0x8)
    (hacc : commandError i s.operands s = .none) :
    (0 < s.nextLatency ∧ issueWord v s = .next (s.launch i s.nextLatency)) ∨
    (s.nextLatency = 0 ∧ issueWord v s = .next (effectOf i s.operands s.popLatency)) := by
  have hpass : s.err = .none ∨ i = .clear := herr.imp_right (eq_clear_of_decode hd)
  rw [issueWord_of_decode hd, exec_eq_issue, issue_accepted _ hidle hpass hacc]
  by_cases hl : s.nextLatency = 0
  · exact .inr ⟨hl, by rw [accept_at_once _ _ hl]⟩
  · exact .inl ⟨Nat.pos_of_ne_zero hl, by rw [accept_in_flight _ _ hl]⟩

/-- Settles O22: the checks of R209 in their order, each with its outcome. -/
theorem cmdWriteIsAcceptedRejectedOrIgnored : Obligations.CmdWriteIsAcceptedRejectedOrIgnored := by
  intro s v
  by_cases hidle : s.inflight = none
  case neg =>
    obtain ⟨hrecorded, hignored⟩ := busyWriteIsDropped s v hidle
    by_cases herr : s.err = .none
    · exact .inr (.inl ⟨herr, .busy, .inl ⟨hidle, rfl⟩, hrecorded herr⟩)
    · exact .inl ⟨herr, .inl hidle, hignored herr⟩
  by_cases hpass : s.err = .none ∨ v = 0x8
  case neg =>
    obtain ⟨herr, hv⟩ := not_or.1 hpass
    exact .inl ⟨herr, .inr hv, issueWord_sticky hidle herr hv⟩
  cases hd : decode v with
  | error x =>
    have herr : s.err = .none := hpass.resolve_right fun hv => by
      rw [(decode_eq_clear_iff v).2 hv] at hd
      cases hd
    refine .inr (.inl ⟨herr, .illegal, .inr (.inl ⟨hidle, ⟨x, rfl⟩, rfl⟩), ?_⟩)
    rw [issueWord_of_illegal hd, illegalWord_of_ready v ⟨hidle, herr⟩]
    rfl
  | ok i =>
    by_cases hacc : commandError i s.operands s = .none
    · exact .inr (.inr ⟨hidle, hpass, i, rfl, hacc, issueWord_of_accepted hd hidle hpass hacc⟩)
    · have herr : s.err = .none := hpass.resolve_right fun hv => by
        rw [eq_clear_of_decode hd hv] at hacc
        exact hacc (commandError_clear s.operands s)
      obtain ⟨hopc, -⟩ := fields_of_decode hd
      refine .inr (.inl ⟨herr, _, .inr (.inr ⟨hidle, hacc, i, rfl, rfl⟩), ?_⟩)
      rw [issueWord_of_decode hd, exec_eq_issue, issue_rejected _ ⟨hidle, herr⟩ hacc, ← hopc]
      rfl

/-! ## How a recorded error ends -/

/-- `t` has the error record of `s` (R33). -/
def State.SameError (s t : State) : Prop := t.err = s.err ∧ t.erropc = s.erropc

/-- What CLEAR and reset leave: no error, no session, and S = 0 (R181, R212, R230). -/
structure State.Cleared (t : State) : Prop where
  err : t.err = .none
  erropc : t.erropc = 0
  S : t.S = 0
  phase : t.phase = .idle

theorem effectOf_sameError_or_clear (i : Instr) (o : Operands) (s : State) :
    s.SameError (effectOf i o s) ∨ (i = .clear ∧ (effectOf i o s).Cleared) := by
  rcases effectOf_error i o s with hkeep | ⟨rfl, -⟩
  · exact .inl hkeep
  · exact .inr ⟨rfl, rfl, rfl, rfl, rfl⟩

/-- With an error recorded, a CMD write keeps the record, or its word is 0x8 and CLEAR completes at once
(R207, R208, R212). -/
theorem issueWord_sameError_or_clear {v : Word} {s t : State} (herr : s.err ≠ .none)
    (hx : issueWord v s = .next t) : s.SameError t ∨ (v = 0x8 ∧ t.Cleared) := by
  rcases cmdWriteIsAcceptedRejectedOrIgnored s v with
    ⟨-, -, h⟩ | ⟨hnone, -⟩ | ⟨-, hpass, i, -, -, ⟨-, h⟩ | ⟨-, h⟩⟩
  · cases h.symm.trans hx
    exact .inl ⟨rfl, rfl⟩
  · exact absurd hnone herr
  · cases h.symm.trans hx
    exact .inl ⟨rfl, rfl⟩
  · cases h.symm.trans hx
    have hv := hpass.resolve_left herr
    rcases effectOf_sameError_or_clear i s.operands s.popLatency with hkeep | ⟨-, hclear⟩
    · exact .inl hkeep
    · exact .inr ⟨hv, hclear⟩

/-- With an error recorded, a transaction keeps the record, or it is a reset or a write of 0x8 to CMD
(R212, R213). -/
theorem hostEvent_sameError_or_clear {e : HostEvent} {s t : State} (herr : s.err ≠ .none)
    (hx : hostEvent e s = .next t) :
    s.SameError t ∨
      ((e = .write (s.windowBase + 0x020) 8 0x8 ∨ e = .reset) ∧ t.Cleared) := by
  cases e with
  | read addr size =>
    rcases hostRead_cases addr size s with hr | ⟨v, hr⟩ | ⟨-, hr⟩ <;> cases hr.symm.trans hx <;>
      exact .inl ⟨rfl, rfl⟩
  | poll =>
    cases hx
    rcases hostPoll_cases s with hp | hp <;> rw [hp] <;> exact .inl ⟨rfl, rfl⟩
  | reset =>
    cases hx
    exact .inr ⟨.inr rfl, rfl, rfl, rfl, rfl⟩
  | write addr size v =>
    rcases hostWrite_cases addr size v s with
      hw | hw | ⟨-, -, hw⟩ | ⟨-, -, hw⟩ | ⟨-, -, hw⟩ | ⟨rfl, rfl, hw⟩ <;> have hs := hw.symm.trans hx
    · cases hs
    iterate 4 · cases hs; exact .inl ⟨rfl, rfl⟩
    · rcases issueWord_sameError_or_clear herr hs with hkeep | ⟨rfl, hclear⟩
      · exact .inl hkeep
      · exact .inr ⟨.inl rfl, hclear⟩

/-- Settles O54: the completion of CLEAR, the write of its word and a reset are the only ways out of the
error state. -/
theorem firstErrorStaysUntilClearOrReset : Obligations.FirstErrorStaysUntilClearOrReset := by
  intro s t hx herr
  rcases step_cases s with ⟨f, hf, -, hs⟩ | ⟨-, -, hs⟩ | ⟨e, rest, hq, -, hs⟩
  · cases hs.symm.trans hx
    rcases effectOf_sameError_or_clear f.instr f.ops { s with inflight := none } with
      hkeep | ⟨hclear, h⟩
    · exact .inl hkeep
    · exact .inr ⟨h.err, h.erropc, h.S, h.phase, .inl ⟨f, hf, hclear⟩⟩
  · cases hs.symm.trans hx
    exact .inl ⟨rfl, rfl⟩
  · rcases hostEvent_sameError_or_clear (s := { s.tick with queue := rest }) herr
      (hs.symm.trans hx) with hkeep | ⟨rfl | rfl, h⟩
    · exact .inl hkeep
    · exact .inr ⟨h.err, h.erropc, h.S, h.phase, .inr (.inl ⟨rest, hq⟩)⟩
    · exact .inr ⟨h.err, h.erropc, h.S, h.phase, .inr (.inr ⟨rest, hq⟩)⟩

/-! ## No command and no transaction -/

/-- Settles O59: without a command to complete or a transaction to take, a step changes nothing. -/
theorem idleBlockHoldsItsState : Obligations.IdleBlockHoldsItsState :=
  fun _ => step_holds

end Sys2Proof.Machine
end

section
/-! PROOFS. Reset, and the hazards of a command in flight: its issue, the accesses it waits for, and its
completion (spec 70_reset_and_hazards.md R230 to R238). -/

namespace Sys2Proof.Machine

/-! ## Reset -/

/-- Settles O50: both are states at the reset values of R230. -/
theorem resetMeetsTheInvariant : Obligations.ResetMeetsTheInvariant :=
  ⟨fun w base => inv_of_reset_values (w := w) (base := base) rfl rfl rfl rfl rfl,
    inv_of_reset_values (w := .b1600) (base := 0) rfl rfl rfl rfl rfl⟩

/-- The NR field of CFG's reset value is NRMAX, and every other bit is 0 (R35, R230). -/
theorem resetCfg_fields (w : Width) :
    (w.resetCfg.extractLsb' 4 5).toNat = w.nrmax ∧ w.resetCfg &&& ~~~(0x1F0 : Word) = 0 := by
  cases w <;> decide

/-- A reset that no completion precedes is the next transaction, whether a command is in flight or not. -/
theorem step_reset {s : State} {rest : List HostEvent} (hq : s.queue = .reset :: rest)
    (hleft : ∀ f, s.inflight = some f → f.left ≠ 0) :
    step s = .next (State.afterReset { s.tick with queue := rest }) := by
  have hwait : s.completing = none := by
    cases hf : s.inflight with
    | none => exact completing_of_idle hf
    | some f => exact completing_eq_none hf (hleft f hf) (by simp [hq])
  exact step_takes hwait hq

/-- Settles O58: the step performs the reset, and STATUS, POS and CUR read as they do right after it. -/
theorem resetSetsTheTable : Obligations.ResetSetsTheTable := by
  intro s rest hq hleft
  obtain ⟨hnr, hother⟩ := resetCfg_fields s.width
  obtain ⟨-, hstatus⟩ := statusReadsItsFields
  obtain ⟨-, hpos, hcur⟩ := posAndCurReadTheirFields
  refine ⟨_, step_reset hq hleft, rfl, rfl, rfl, rfl, rfl, rfl, rfl, rfl, rfl, rfl, rfl, rfl, hnr, hother,
    rfl, rfl, rfl, hstatus, hpos, hcur, fun hw => ?_, rfl, rfl, rfl⟩
  have hw' : s.width = .b1600 := hw
  rw [afterReset_cfg, afterReset_width, tick_width, hw']
  decide

/-! ## Reads while BUSY = 1 -/

/-- A read that R235 leaves open. -/
theorem hostRead_of_busy {r : Reg} {s : State} (hf : s.inflight ≠ none)
    (hr : r.unspecifiedWhileBusy = true) : hostRead (s.windowBase + r.offset) 8 s = .next s.answerFree := by
  have hbusy : s.busy = true := busy_eq_true_iff.2 (Option.ne_none_iff_exists'.1 hf)
  rw [hostRead_reg, State.readReg, if_pos ⟨hbusy, hr⟩]

/-- An aligned offset of the lane window is the offset of a lane (R61). -/
theorem exists_lane_offset {off : Nat} (h8 : off % 8 = 0) (hlow : 0x100 ≤ off) (hhigh : off ≤ 0x1C0) :
    ∃ k, (Reg.lane k).offset = off :=
  ⟨⟨(off - 0x100) / 8, by omega⟩, by simp only [Reg.offset]; omega⟩

/-- Settles O36: the four kinds of register R235 leaves open, then those it keeps exact, then the
reserved locations. -/
theorem readsWhileBusy : Obligations.ReadsWhileBusy := by
  intro s hf
  obtain ⟨hstatus, hbit, -⟩ := statusReadsItsFields.1 s
  refine ⟨?_, hstatus, hbit.trans (Option.isSome_iff_ne_none.2 hf), hostRead_of_exact .param s rfl,
    hostRead_of_exact .cfg s rfl, hostRead_of_exact .outlen s rfl, hostRead_of_exact .din s rfl,
    hostRead_of_exact .cmd s rfl, fun off _ hoff => ?_⟩
  · rintro off (rfl | rfl | rfl | ⟨h8, hlow, hhigh⟩)
    · exact hostRead_of_busy (r := .pos) hf rfl
    · exact hostRead_of_busy (r := .cur) hf rfl
    · exact hostRead_of_busy (r := .dout) hf rfl
    · obtain ⟨k, rfl⟩ := exists_lane_offset h8 hlow hhigh
      exact hostRead_of_busy (r := .lane k) hf rfl
  · obtain ⟨hread, -⟩ := (reservedLocationsReadZero s).1 off 8 (by omega)
    exact hread

/-! ## The issue -/

/-- Settles O23: an accepted command with LAT > 0 is launched. -/
theorem acceptedCommandGoesIntoFlight : Obligations.AcceptedCommandGoesIntoFlight := by
  intro s i n later hidle herr hacc hlat
  have hnext : s.nextLatency = n + 1 := by simp [State.nextLatency, hlat]
  rw [exec_eq_issue, issue_accepted _ hidle herr hacc, accept_in_flight _ _ (by omega), hnext,
    State.launch, hlat]
  rfl

/-- An accepted command with LAT = 0 applies its effect at once, CLEAR also with an error recorded. -/
theorem exec_completes_at_once {s : State} {i : Instr} {later : List Nat} (hidle : s.inflight = none)
    (herr : s.err = .none ∨ i = .clear) (hacc : commandError i s.operands s = .none)
    (hlat : s.latency = 0 :: later) :
    exec i s = .next (effectOf i s.operands { s with latency := later }) := by
  have hnow : s.nextLatency = 0 := by simp [State.nextLatency, hlat]
  rw [exec_eq_issue, issue_accepted _ hidle herr hacc, accept_at_once _ _ hnow, State.popLatency, hlat]
  rfl

/-! ## What an effect does not read -/

/-- An effect reads the captured operands, and not the registers they were captured from (R234). -/
theorem effectOf_with_operand_registers (i : Instr) (o : Operands) (s : State) (din cfg outlen : Word) :
    effectOf i o { s with din := din, cfg := cfg, outlen := outlen } =
      { effectOf i o s with din := din, cfg := cfg, outlen := outlen } := by
  cases i with
  | init =>
    simp only [effectOf, initEffect]
    split <;> rfl
  | _ => rfl

/-- An effect does not read what the host's reads were answered. -/
theorem effectOf_with_reply (i : Instr) (o : Operands) (s : State) (reply : Option Word) (freeIx : Nat) :
    effectOf i o { s with reply := reply, freeIx := freeIx } =
      { effectOf i o s with reply := reply, freeIx := freeIx } := by
  cases i with
  | init =>
    simp only [effectOf, initEffect]
    split <;> rfl
  | _ => rfl

/-- Settles O24: both steps complete the command, and its effect does not read the three registers. -/
theorem laterOperandWritesDoNotReachTheCommand : Obligations.LaterOperandWritesDoNotReachTheCommand := by
  intro s t f din cfg outlen hf hleft hstep
  cases (step_completes (completing_eq_some hf (.inl hleft))).symm.trans hstep
  have hdue : State.completing { s with din := din, cfg := cfg, outlen := outlen } = some f :=
    completing_eq_some hf (.inl hleft)
  rw [step_completes hdue]
  exact congrArg _
    (effectOf_with_operand_registers f.instr f.ops { s with inflight := none } din cfg outlen)

/-! ## Accesses in the window -/

theorem windowOffset_of_mem {base addr : Nat} (h : base ≤ addr ∧ addr < base + 0x200) :
    windowOffset base addr = some (addr - base) :=
  if_pos h

/-- A read in the window changes only what the host was answered (R69). -/
theorem hostRead_in_window {addr : Nat} (size : Nat) {s : State}
    (h : s.windowBase ≤ addr ∧ addr < s.windowBase + 0x200) :
    ∃ reply freeIx, hostRead addr size s = .next { s with reply := reply, freeIx := freeIx } := by
  rcases hostRead_cases addr size s with hr | ⟨v, hr⟩ | ⟨-, hr⟩
  · rw [hostRead, windowOffset_of_mem h] at hr
    dsimp only at hr
    split at hr
    · cases hr
    · split at hr <;> cases hr
  · exact ⟨_, _, hr⟩
  · exact ⟨_, _, hr⟩

/-- A write in the window is ignored or is a write to a register (R44, R62). -/
theorem hostWrite_in_window {addr : Nat} (size : Nat) (v : Word) {s : State}
    (h : s.windowBase ≤ addr ∧ addr < s.windowBase + 0x200) :
    hostWrite addr size v s = .next s ∨ ∃ r, hostWrite addr size v s = writeReg r v s := by
  rw [hostWrite, windowOffset_of_mem h]
  dsimp only
  split
  · exact .inl rfl
  · split
    · exact .inl rfl
    · exact .inr ⟨_, rfl⟩

/-- While BUSY = 1 no register write reaches the command in flight or the host's queue (R207, R236). -/
theorem writeReg_of_busy (r : Reg) (v : Word) {s : State} (hf : s.inflight ≠ none) :
    ∃ t, writeReg r v s = .next t ∧ t.inflight = s.inflight ∧ t.queue = s.queue := by
  cases r with
  | cmd => exact ⟨_, issueWord_busy v hf, reject_inflight .., reject_queue ..⟩
  | _ => exact ⟨_, rfl, rfl, rfl⟩

/-- The transactions that stay in the window at `base`: all but a read or write outside it (R60). -/
def InWindow (base : Nat) (e : HostEvent) : Prop :=
  ∀ addr size, (e = .read addr size ∨ ∃ v, e = .write addr size v) → base ≤ addr ∧ addr < base + 0x200

/-- While BUSY = 1 a transaction in the window is answered. It is a reset, which abandons the command, or
it leaves the command in flight; and it asks nothing new of the host but another turn of POLL. -/
theorem hostEvent_of_busy {e : HostEvent} {s : State} (hf : s.inflight ≠ none)
    (he : InWindow s.windowBase e) :
    ∃ t, hostEvent e s = .next t ∧
      (t.inflight = none ∨
        t.inflight = s.inflight ∧ ∀ e' ∈ t.queue, e' = .poll ∨ e' ∈ s.queue) := by
  cases e with
  | read addr size =>
    obtain ⟨reply, freeIx, hr⟩ := hostRead_in_window size (he addr size (.inl rfl))
    exact ⟨_, hr, .inr ⟨rfl, fun _ => .inr⟩⟩
  | write addr size v =>
    rcases hostWrite_in_window size v (he addr size (.inr ⟨v, rfl⟩)) with hw | ⟨r, hw⟩
    · exact ⟨s, hw, .inr ⟨rfl, fun _ => .inr⟩⟩
    · obtain ⟨t, ht, hflight, hqueue⟩ := writeReg_of_busy r v hf
      exact ⟨t, hw.trans ht, .inr ⟨hflight, fun _ he' => .inr (hqueue ▸ he')⟩⟩
  | poll =>
    refine ⟨hostPoll s, rfl, .inr ?_⟩
    rcases hostPoll_cases s with hp | hp <;> rw [hp]
    · exact ⟨rfl, fun _ => .inr⟩
    · exact ⟨rfl, fun _ => List.mem_cons.1⟩
  | reset => exact ⟨s.afterReset, rfl, .inl rfl⟩

/-! ## The completion -/

theorem busy_complete (f : InFlight) (s : State) : (complete f s).busy = false := by
  obtain ⟨-, -, -, -, -, hflight, -⟩ := effectOf_keeps f.instr f.ops { s with inflight := none }
  exact busy_eq_false_iff.2 hflight

/-- Settles O26: each transaction abandons the command or takes one from its latency, and at 0 it
completes. -/
theorem busyEndsWithinLatency : Obligations.BusyEndsWithinLatency := by
  intro s f hf hwindow
  induction hn : f.left generalizing s f with
  | zero => exact ⟨1, _, le_rfl, run_succ 0 (step_completes (completing_eq_some hf (.inl hn))),
      busy_complete f s⟩
  | succ n ih =>
    cases hq : s.queue with
    | nil => exact ⟨1, _, by omega, run_succ 0 (step_completes (completing_eq_some hf (.inr hq))),
        busy_complete f s⟩
    | cons e rest =>
      have htake := step_takes (completing_eq_none hf (by omega) (by simp [hq])) hq
      have htick : s.tick.inflight = some { f with left := n } := by simp [hf, hn]
      obtain ⟨t, ht, hdone | ⟨hflight, hqueue⟩⟩ :=
        hostEvent_of_busy (e := e) (s := { s.tick with queue := rest }) (by simp [hf])
          (hwindow e (by simp [hq]))
      · exact ⟨1, t, by omega, run_succ 0 (htake.trans ht), busy_eq_false_iff.2 hdone⟩
      · have hbase : t.windowBase = s.windowBase := (hostEvent_sameBuild ht).2
        have hrest : ∀ e' ∈ t.queue, InWindow t.windowBase e' := by
          intro e' he'
          rw [hbase]
          rcases hqueue e' he' with rfl | hold
          · simp [InWindow]
          · exact hwindow e' (by simp [hq, hold])
        obtain ⟨k, u, hk, hrun, hidle⟩ := ih t { f with left := n } (hflight.trans htick) hrest rfl
        exact ⟨k + 1, u, by omega, (run_succ k (htake.trans ht)).trans hrun, hidle⟩

theorem with_inflight_none {s : State} (h : s.inflight = none) : { s with inflight := none } = s := by
  rw [← h]

/-- A command in flight acts on the state its issue found, if nothing else changed since. -/
theorem complete_of_launched {s : State} (hidle : s.inflight = none) (f : InFlight) :
    complete f { s with inflight := some f } = effectOf f.instr f.ops s :=
  congrArg (effectOf f.instr f.ops) (with_inflight_none hidle)

/-- The host is about to make these reads, each an address and a size, and then the rest. -/
def readsThen (reads : List (Nat × Nat)) (rest : List HostEvent) : List HostEvent :=
  (reads.map fun r => HostEvent.read r.1 r.2) ++ rest

/-- A command that waits for as many reads as its latency counts, and then completes. -/
theorem run_reads_completes (reads : List (Nat × Nat)) (rest : List HostEvent) {s : State} {f : InFlight}
    (hf : s.inflight = some f) (hleft : f.left = reads.length) (hq : s.queue = readsThen reads rest)
    (hwindow : ∀ r ∈ reads, s.windowBase ≤ r.1 ∧ r.1 < s.windowBase + 0x200) :
    ∃ reply freeIx, Host.Core.run Sys2Proof.core (reads.length + 1) s =
      .next (complete f { s with queue := rest, reply := reply, freeIx := freeIx }) := by
  induction reads generalizing s f with
  | nil =>
    have hrest : s.queue = rest := hq
    subst hrest
    exact ⟨s.reply, s.freeIx, run_succ 0 (step_completes (completing_eq_some hf (.inl hleft)))⟩
  | cons r reads ih =>
    obtain ⟨hr, hreads⟩ := List.forall_mem_cons.1 hwindow
    have hlen : f.left = reads.length + 1 := hleft
    obtain ⟨reply, freeIx, hread⟩ := hostRead_in_window r.2
      (s := { s.tick with queue := readsThen reads rest }) hr
    have hwait : s.completing = none := completing_eq_none hf (by omega) (by simp [hq, readsThen])
    have hstep := (step_takes hwait hq).trans hread
    have htick : s.tick.inflight = some { f with left := reads.length } := by simp [hf, hlen]
    obtain ⟨reply', freeIx', hrun⟩ := ih
      (s := { s.tick with queue := readsThen reads rest, reply := reply, freeIx := freeIx })
      htick rfl rfl hreads
    exact ⟨reply', freeIx', (run_succ _ hstep).trans hrun⟩

/-- Settles O25: the completion applies the effect to the state the issue found, but for the reads. -/
theorem latencyDoesNotChangeTheResult : Obligations.LatencyDoesNotChangeTheResult := by
  refine ⟨fun s f hf hdue => step_completes (completing_eq_some hf hdue), ?_, ?_⟩
  · intro s i n later reads rest hidle herr hacc hlen hwindow
    have hissue := acceptedCommandGoesIntoFlight
      { s with latency := (n + 1) :: later, queue := readsThen reads rest } i n later hidle herr hacc rfl
    have hnow := exec_completes_at_once (s := { s with latency := 0 :: later, queue := rest })
      hidle herr hacc rfl
    obtain ⟨reply, freeIx, hrun⟩ := run_reads_completes reads rest (f := ⟨i, s.operands, n + 1⟩)
      (s := { s with
        inflight := some ⟨i, s.operands, n + 1⟩, latency := later, queue := readsThen reads rest })
      rfl hlen.symm rfl hwindow
    have hsame := (complete_of_launched
        (s := { s with latency := later, queue := rest, reply := reply, freeIx := freeIx }) hidle
        ⟨i, s.operands, n + 1⟩).trans
      (effectOf_with_reply i s.operands { s with latency := later, queue := rest } reply freeIx)
    rw [hlen] at hrun
    exact ⟨_, _, _, hissue, hrun.trans (congrArg Host.Outcome.next hsame), hnow, rfl⟩
  · intro s u i n later hidle herr hacc hq hissue
    cases (acceptedCommandGoesIntoFlight { s with latency := (n + 1) :: later } i n later hidle herr
      hacc rfl).symm.trans hissue
    have hstep := step_completes
      (s := { s with inflight := some ⟨i, s.operands, n + 1⟩, latency := later })
      (completing_eq_some rfl (.inr hq))
    have hsame := complete_of_launched (s := { s with latency := later }) hidle
      ⟨i, s.operands, n + 1⟩
    have hnow := exec_completes_at_once (s := { s with latency := 0 :: later }) hidle herr hacc rfl
    exact (hstep.trans (congrArg Host.Outcome.next hsame)).trans hnow.symm

end Sys2Proof.Machine
end
